-- ==== Sys2Proof/Word.lean ====
section
/-! DEFINITION. The word types of the Nerkaj 1640: bytes, lane data characters, Reference Count values, host
addresses, and the numbers of feeds and of frame slots. -/

namespace Sys2Proof

/-- A byte of host memory or card DRAM, and a data character of a feed lane (R179: eight bits). -/
abbrev Byte := BitVec 8

/-- A value of the Reference Count: 48 bits, wrapping (R25, R26). -/
abbrev Count := BitVec 48

/-- A 64-bit host memory address (R69, R165). -/
abbrev HostAddr := BitVec 64

/-- One pixel pair of a feed lane: 40 bits, Cb, Y left, Cr, Y right, ten bits each (section 11.7). -/
abbrev PixelPair := BitVec 40

/-- Feeds are numbered 0 to 15 (00_scope, Feeds, frames and pictures). -/
abbrev FeedId := Fin 16

/-- Frame slots are numbered 0 to 95 (R52). -/
abbrev SlotId := Fin 96

end Sys2Proof
end

