-- ==== Sys2Proof/Syntax.lean ====
section
/-! DEFINITION. The commands of the 1640: one constructor for each row of spec/opcode_table.json, with the operands the
row's rule gives it. A lane symbol carries the data characters that arrived for it, so that a symbol that was cut off (R2)
is the same command with fewer characters. -/

namespace Sys2Proof

/-- How the host answers a read (R147): with data, or with an error status. -/
inductive Reply where
  | data (bytes : List Byte)
  | error
deriving DecidableEq, Repr

/-- A completion on the host link (R147): the number of the read it answers (log entry 36), and the answer. -/
structure Completion where
  read  : Nat
  reply : Reply
deriving DecidableEq, Repr

/-- The commands and events of the part, one for each row of spec/opcode_table.json. -/
inductive Instr where
  /-- SIGNAL_LOSS (R6): lane `f` loses symbol alignment. -/
  | signalLoss (f : FeedId)
  /-- SIGNAL_RETURN (R5): lane `f` regains symbol alignment. -/
  | signalReturn (f : FeedId)
  /-- FRAME_HEADER_START (R3): the control character of a Frame Header arrives on lane `f`. -/
  | frameHeaderStart (f : FeedId)
  /-- FRAME_HEADER (R4): the last field of a Frame Header arrives; `chars` are its twelve data characters. -/
  | frameHeader (f : FeedId) (chars : List Byte)
  /-- LINE_MARKER (R11): a Line Marker; `chars` are its data characters, fewer than two when it was cut off. -/
  | lineMarker (f : FeedId) (chars : List Byte)
  /-- SAMPLE_DATA (R179): a Sample data symbol; `chars` are its data characters, fewer than five when incomplete. -/
  | sampleData (f : FeedId) (chars : List Byte)
  /-- LINE_END (R11): a Line End symbol. -/
  | lineEnd (f : FeedId)
  /-- METADATA_PACKET (R19): a Metadata Packet; `chars` are the item count and the items' data characters. -/
  | metadataPacket (f : FeedId) (chars : List Byte)
  /-- LOSS_DEADLINE_EXPIRY (R33): the loss deadline of feed `f` has reached 0. -/
  | lossDeadlineExpiry (f : FeedId)
  /-- REF_PULSE_EDGE (R35): a rising edge of REF_PULSE. -/
  | refPulseEdge
  /-- TIME_LOAD_WAIT_EXPIRY (R36): the wait of the pending time load has reached 0. -/
  | timeLoadWaitExpiry
  /-- READ_COMPLETION (R147): a completion of a read arrives. -/
  | readCompletion (c : Completion)
  /-- READ_TIMEOUT (R147): the remaining time of the outstanding read has reached 0. -/
  | readTimeout
  /-- LINK_BURST_COMPLETE (R142): the burst on the host link completes. -/
  | linkBurstComplete
  /-- BROWSE_BAND_COMPLETE (R134): the reducer has read all F source lines of the band. -/
  | browseBandComplete
  /-- LOAD (R157): an ATTENTION write with request LOAD and feed mask `mask`. -/
  | load (mask : BitVec 16)
  /-- LOAD_COMMON (R158). -/
  | loadCommon (mask : BitVec 16)
  /-- ARM (R73). -/
  | arm (mask : BitVec 16)
  /-- STOP (R81). -/
  | stop (mask : BitVec 16)
  /-- HALT (R82). -/
  | halt (mask : BitVec 16)
  /-- ABORT (R83). -/
  | abort (mask : BitVec 16)
  /-- REFILL (R84). -/
  | refill (mask : BitVec 16)
  /-- FEED_RESET (R164). -/
  | feedReset (mask : BitVec 16)
  /-- START (R166): the mask field of the write is disregarded (section 9.3). -/
  | start (mask : BitVec 16)
  /-- STANDBY (R167): the mask field is disregarded. -/
  | standby (mask : BitVec 16)
  /-- TIME_LOAD (R34): the mask field is disregarded. -/
  | timeLoad (mask : BitVec 16)
  /-- ATTENTION_IGNORED (R159): an ATTENTION write of the 32-bit `word`, decoded when it arrives. -/
  | attentionIgnored (word : BitVec 32)
  /-- NOTICE_WRITE (R171). -/
  | noticeWrite (word : BitVec 32)
  /-- NOTICE_MASK_WRITE (R174). -/
  | noticeMaskWrite (word : BitVec 32)
  /-- PART_STATUS_WRITE (R175). -/
  | partStatusWrite (word : BitVec 32)
  /-- PAGE_BASE_WRITE (R165): a write of the low (`high = false`) or the high word. -/
  | pageBaseWrite (high : Bool) (word : BitVec 32)
  /-- REF_COUNT_LOW_READ (R27). -/
  | refCountLowRead
  /-- IGNORED_REGISTER_WRITE (R168): a write at window offset `offset`, where no register takes writes. -/
  | ignoredRegisterWrite (offset : BitVec 8) (word : BitVec 32)
  /-- POWER_ON_RESET (R24). -/
  | powerOnReset
  /-- HOST_LINK_RESET (R150). -/
  | hostLinkReset
deriving DecidableEq, Repr

end Sys2Proof
end

