-- ==== Sys2Proof/Decode.lean ====
section
/-! DEFINITION. Decoding of words. No row of spec/opcode_table.json gives bits ("fields" is empty for every row): a
command reaches the part as a lane symbol, a pin event, a link event or a register write, never as an instruction word. So
no word spells a command, and there is nothing to encode. -/

namespace Sys2Proof

/-- The command that a word of `nbits` bits spells by the table's bits: none, since no row gives any. -/
def decodeTableWord (_nbits _w : Nat) : Option Instr := none

end Sys2Proof
end

