-- ==== Sys2Proof/Machine/State.lean ====
section
/-! DEFINITION. The state of the 1640 as plain data: every register, counter, list, slot and context the spec gives the
part's twelve blocks, the queue of commands that wait, and the few fields of the model's own (marked MODEL). The state has
three parts: the command queue, `front` (the lanes, the clock, the registers and the Attention Unit) and `eng` (the blocks
that act on their own: takes, staging pool, index, mover, reducer, record port, link, notices). -/

namespace Sys2Proof.Machine

/-! ## Why a step can stop -/

/-- A fault. The spec gives every command an effect in every state, so no command faults: there is no constructor. -/
inductive Fault where
deriving DecidableEq, Repr

/-- A refusal. -/
inductive Refusal where
  /-- Raised by exec for a command whose meaning is not written; safe (nothing is claimed). No arm raises it. -/
  | notModelled (mnemonic : String)
deriving DecidableEq, Repr

/-! ## Codes and small records -/

/-- Framing of a feed (R11, R12). -/
inductive Framing where
  | marked
  | counted
deriving DecidableEq, Repr

/-- The four rate classes (R38): 25, 50, 29.97 drop, 59.94 drop. -/
inductive RateClass where
  | fps25
  | fps50
  | drop30
  | drop60
deriving DecidableEq, Repr

/-- Link state of a feed (section 1.3). -/
inductive Link where
  | dark
  | seeking
  | locked
deriving DecidableEq, Repr

/-- A timecode label hh:mm:ss:ff (R39). -/
structure Label where
  hh : Nat
  mm : Nat
  ss : Nat
  ff : Nat
deriving DecidableEq, Repr

/-- A label with its day number beside it (R50). -/
structure Timecode where
  label : Label
  day   : Nat
deriving DecidableEq, Repr

/-- What the Timecode Unit hands back for a header (R43). -/
structure Placed where
  tc          : Timecode
  substituted : Bool
deriving DecidableEq, Repr

/-- The settings of an enabling block, checked and brought into range (R155, R156). -/
structure Settings where
  framing     : Framing
  rate        : RateClass
  w           : Nat
  h           : Nat
  topSkip     : Nat
  leftSkip    : Nat
  lossWindow  : Nat
  tolerance   : Nat
  gapLimit    : Nat
  ceiling     : Nat
  factor      : Nat
  lag         : Nat
  dither      : Bool
  ditherCode  : Nat
  ditherPhase : Nat
  stride      : Nat
deriving DecidableEq, Repr

/-- A validated settings block (R155): a disabling block carries the enable field alone. -/
inductive Block where
  | disabling
  | enabling (settings : Settings)
deriving DecidableEq, Repr

/-- The drop tally (R10): four counts, each 0 to 65,535. -/
structure Tally where
  overrun    : Nat
  mismatch   : Nat
  broken     : Nat
  emptyFrame : Nat
deriving DecidableEq, Repr

/-- One item of the Field Metadata Record (R19): a tag and a 6-byte value. -/
structure Item where
  tag   : Byte
  value : BitVec 48
deriving DecidableEq, Repr

/-- The line buffer (R11, R12): empty, a line that will be discarded, a numbered line (MARKED) or a counted line
(COUNTED), with the pixel pairs received so far, oldest first. -/
inductive LineBuffer where
  | empty
  | discarding
  | numbered (y : Nat) (pairs : List PixelPair)
  | counted (pairs : List PixelPair)
deriving DecidableEq, Repr

/-- A Feed Receiver (chapter 1). -/
structure Receiver where
  enabled   : Bool
  /-- The lane's signal is present (R1). -/
  signal    : Bool
  link      : Link
  candidate : Bool
  hasLocked : Bool
  relock    : Option Count
  active    : Option Settings
  waiting   : Option Block
  /-- A Frame Header has begun and its last field has not arrived (R2, R3). -/
  inHeader  : Bool
  line      : LineBuffer
  metadata  : List Item
  changed   : List Byte
  tally     : Tally
  /-- The feed-level expected day number; `none` is the mark "first header". -/
  expected  : Option Nat
deriving DecidableEq, Repr

/-- The Reference Timer's state for one feed (chapter 2). -/
structure FeedTimer where
  /-- Up to nine arrival captures, oldest first (R28). -/
  history    : List Count
  measured   : Option Nat
  cadenceOff : Bool
  deadline   : Option Nat
deriving DecidableEq, Repr

/-- A pending time load (R34). -/
structure TimeLoad where
  value : Count
  wait  : Nat
deriving DecidableEq, Repr

/-- The reduction context of a feed (R123). -/
structure ReduceContext where
  lag    : Nat
  dither : Bool
  period : Nat
  phase  : Nat
deriving DecidableEq, Repr

/-! ## Takes and their index records -/

/-- Start modes of a sheet (R68). -/
inductive StartMode where
  | immediate
  | atTime
  | atTimecode
  | contiguous
deriving DecidableEq, Repr

/-- Stop modes of a sheet (R68). -/
inductive StopMode where
  | onRequest
  | atTime
  | atTimecode
  | afterFrames
deriving DecidableEq, Repr

/-- Close reasons (R107). -/
inductive CloseReason where
  | stopped
  | halted
  | stopTime
  | stopTimecode
  | frameCount
  | split
  | roomExhausted
  | aborted
  | feedReset
deriving DecidableEq, Repr

/-- The state of a take context. `cancelled` and `superseded` are contexts that have left their place and whose final
state has been asked of the Record Port and not yet granted (R72, R144). -/
inductive TakeState where
  | armed
  | staged
  | recording
  | closing
  | ending
  | cancelled
  | superseded
deriving DecidableEq, Repr

/-- The sheet states the part writes (R70, section 11.8). -/
inductive SheetState where
  | armed
  | staged
  | recording
  | closing
  | closed
  | cancelled
  | superseded
  | aborted
deriving DecidableEq, Repr

/-- The host-written header of a take sheet (R68), with the posted counts clamped (R71, R73). -/
structure SheetHeader where
  label         : BitVec 32
  browse        : Bool
  startMode     : StartMode
  startParam    : BitVec 64
  stopMode      : StopMode
  stopParam     : BitVec 64
  essencePosted : Nat
  browsePosted  : Nat
  indexPosted   : Nat
deriving DecidableEq, Repr

/-- A consumed good extent (R69): its entry number, host address and length in 4 KiB pages. -/
structure Extent where
  entry : Nat
  base  : HostAddr
  pages : Nat
deriving DecidableEq, Repr

/-- One extent list of a take as consumed so far (R69): the cursor, the last read posted count and the good extents. -/
structure Space where
  cursor  : Nat
  posted  : Nat
  extents : List Extent
deriving DecidableEq, Repr

/-- The three extent lists of a sheet. -/
inductive ListName where
  | essence
  | browse
  | index
deriving DecidableEq, Repr

/-- A take's geometry, fixed when it begins (R79). -/
structure Geometry where
  w      : Nat
  h      : Nat
  rate   : RateClass
  factor : Nat
deriving DecidableEq, Repr

/-- Which room a take was found without (R94). -/
inductive Exhaustion where
  | essence
  | index
deriving DecidableEq, Repr

/-- The stage of a check that may have to read extent entries: to be evaluated now, or waiting for an entry read. -/
inductive CheckStage where
  | evaluate
  | waiting
deriving DecidableEq, Repr

/-- Causes of a link loss (R6). -/
inductive LossCause where
  | dark
  | deadline
deriving DecidableEq, Repr

/-- Decided browse outcomes (section 7.6). -/
inductive BrowseOutcome where
  | written
  | skippedLate
  | skippedNoRoom
  | skippedMoved
  | disabled
deriving DecidableEq, Repr

/-- What settlement puts into a FRAME placeholder (R60, R101). -/
structure Settlement where
  extent         : Nat
  offset         : Nat
  outcome        : BrowseOutcome
  padded         : Bool
  concealed      : Bool
  concealedCount : Nat
deriving DecidableEq, Repr

/-- A FRAME placeholder (R101). `slot` names the frame's slot; `settled` is absent until the frame settles. -/
structure FrameRecord where
  position    : Nat
  tc          : Timecode
  capture     : Count
  substituted : Bool
  slot        : SlotId
  settled     : Option Settlement
deriving DecidableEq, Repr

/-- The START record's own fields (R100). -/
structure StartRecord where
  label   : BitVec 32
  capture : Count
  tc      : Timecode
  geom    : Geometry
deriving DecidableEq, Repr

/-- The kinds of index record with their fields (R100 to R107). END's fields are taken from the take when it is
written (R107). -/
inductive RecordBody where
  | start (r : StartRecord)
  | frame (r : FrameRecord)
  | gap (tally : Tally) (missing : Nat) (expected : Nat)
  | discontinuity (tally : Tally) (previous : Nat) (new : Nat)
  | linkLoss (capture : Count) (cause : LossCause)
  | linkBack (capture : Count)
  | cadenceOff (measured : Nat)
  | cadenceOk (measured : Nat)
  | metadata (tag : Byte) (value : Option (BitVec 48))
  | starved (capture : Count)
  | fed (capture : Count)
  | extentRejected (list : ListName) (entry : Nat)
  | endRecord
deriving DecidableEq, Repr

/-- A record in an Index Queue; `seq` numbers the records of the part in the order they were produced, so that the
newest of a feed can be told (R113). -/
structure Record where
  seq  : Nat
  body : RecordBody
deriving DecidableEq, Repr

/-- A take context (chapter 5 and section 6). `id` numbers the contexts of the part in the order they were created,
which is the Index Writer's service order (R115). -/
structure Take where
  id              : Nat
  feed            : FeedId
  sheet           : HostAddr
  state           : TakeState
  label           : BitVec 32
  browseOn        : Bool
  startMode       : StartMode
  startParam      : BitVec 64
  stopMode        : StopMode
  stopParam       : BitVec 64
  position        : Nat
  lastDay         : Option Nat
  beginFrame      : Option (Count × Timecode)
  geom            : Option Geometry
  essence         : Space
  browse          : Space
  index           : Space
  /-- Invalid index entries passed whose EXTENT_REJECTED records wait for a good entry (R69). -/
  heldRejects     : List Nat
  essenceStarved  : Bool
  indexStarved    : Bool
  exhausted       : Option Exhaustion
  /-- The check of an essence-starved take after a reread (R91). -/
  refeed          : Option CheckStage
  reason          : Option CloseReason
  startCapture    : Option Count
  endCapture      : Option Count
  cadenceRecorded : Bool
  firstFrame      : Bool
  queue           : List Record
  committed       : Nat
  browseWritten   : Nat
  browseSkipped   : Nat
  indexWritten    : Nat
  firstTc         : Option Timecode
  lastTc          : Option Timecode
  eventsDiscarded : Nat
  framesDiscarded : Nat
  deferredStops   : Nat
deriving DecidableEq, Repr

/-- Where the takes of a feed stand (R72), each by its context's number, and the feed's deferred stop (R87). -/
structure Places where
  live         : Option Nat
  staged       : Option Nat
  closing      : List Nat
  ending       : List Nat
  deferredStop : Option CloseReason
deriving DecidableEq, Repr

/-! ## The staging pool -/

/-- Held states of a slot (R53); a FREE slot has no record. -/
inductive SlotState where
  | filling
  | ready
  | settled
  | draining
deriving DecidableEq, Repr

/-- Essence progress of a slot (R52). -/
inductive EssenceProgress where
  | unwritten
  | moving
  | issued
deriving DecidableEq, Repr

/-- Browse progress of a slot (R52). -/
inductive BrowseProgress where
  | undecided
  | reducing
  | decided (outcome : BrowseOutcome)
deriving DecidableEq, Repr

/-- The slot record of a slot that is not FREE (R52). -/
structure Slot where
  state          : SlotState
  feed           : FeedId
  take           : Nat
  position       : Nat
  padded         : Bool
  concealed      : Bool
  concealedCount : Nat
  essence        : EssenceProgress
  browse         : BrowseProgress
  placement      : Option (Nat × Nat)
deriving DecidableEq, Repr

/-- A feed's open frame (chapter 1): its slot, the lines received (ascending), the lines counted since the header
(COUNTED), the PADDED mark, and the skips in force at its header (R12). -/
structure OpenFrame where
  slot     : SlotId
  received : List Nat
  lines    : Nat
  padded   : Bool
  topSkip  : Nat
  leftSkip : Nat
deriving DecidableEq, Repr

/-- A frame whose FRAME record is written and whose slot is not yet released (R61, R117): the feed committed count at
its write, and which writes of a publication that cover it have been issued. -/
structure WrittenFrame where
  slot            : SlotId
  take            : Nat
  count           : BitVec 32
  progressIssued  : Bool
  committedIssued : Bool
deriving DecidableEq, Repr

/-- What a feed's Feed Slot shows of its written frames (R117): the committed count and the last timecode. -/
structure Board where
  committed : BitVec 32
  lastTc    : Timecode
deriving DecidableEq, Repr

/-! ## Mover, reducer, index writer, record port, link -/

/-- Mover state (R139, R140), with the frame in check or the frame transfer: its slot and the next byte to issue. -/
inductive MoverState where
  | idle
  | checking (slot : SlotId) (stage : CheckStage)
  | moving (slot : SlotId) (next : Nat)
deriving DecidableEq, Repr

/-- The Essence Mover. -/
structure Mover where
  state      : MoverState
  lastServed : Option FeedId
deriving DecidableEq, Repr

/-- The row accumulators of a completed band (R134): luma, Cb and Cr sums. -/
structure RowSums where
  luma : List Nat
  cb   : List Nat
  cr   : List Nat
deriving DecidableEq, Repr

/-- The frame in reduction (R128). `sums` are the row accumulators, absent (empty) until the band is in. -/
structure Reduction where
  slot     : SlotId
  feed     : FeedId
  take     : Nat
  position : Nat
  factor   : Nat
  wb       : Nat
  hb       : Nat
  bfb      : Nat
  extent   : Nat
  offset   : Nat
  dither   : Bool
  px       : Nat
  py       : Nat
  nextLine : Nat
  sums     : Option RowSums
deriving DecidableEq, Repr

/-- The Browse Writer's line in hand (R135): its line number, the browse-space offset of its next byte, and the bytes
not yet granted. -/
structure LineInHand where
  line   : Nat
  offset : Nat
  rest   : List Byte
deriving DecidableEq, Repr

/-- The Browse Reducer and its Browse Writer. -/
structure Reducer where
  lastServed : Option FeedId
  check      : Option (SlotId × CheckStage)
  frame      : Option Reduction
  line       : Option LineInHand
deriving DecidableEq, Repr

/-- How far the record in hand has come (R115): its room check, or its write asked of the link. -/
inductive WriterStage where
  | check (stage : CheckStage)
  | asking
deriving DecidableEq, Repr

/-- The Index Writer: the take whose head record is in hand, and the take served last. -/
structure Writer where
  inHand : Option (Nat × WriterStage)
  served : Option Nat
deriving DecidableEq, Repr

/-- Feed requests (section 9.3). -/
inductive FeedRequest where
  | load
  | loadCommon
  | arm
  | stop
  | halt
  | abort
  | refill
  | feedReset
deriving DecidableEq, Repr

/-- Global requests (section 9.3). -/
inductive GlobalRequest where
  | start
  | standby
  | timeLoad
deriving DecidableEq, Repr

/-- Results of an answer (section 11.8). -/
inductive Result where
  | done
  | refusedState
  | refusedPending
  | badSetting
  | badSheet
  | sheetInUse
  | linkError
  | superseded
  | noPulse
deriving DecidableEq, Repr

/-- A feed's answer record (R154). -/
structure Answer where
  taken       : BitVec 32
  lastRequest : Option FeedRequest
  lastResult  : Option Result
  field       : Nat
deriving DecidableEq, Repr

/-- The global answer record (R153). -/
structure GlobalAnswer where
  taken       : BitVec 32
  lastRequest : Option GlobalRequest
  lastResult  : Option Result
deriving DecidableEq, Repr

/-- A write asked of the Record Port (R145). Answers and sheet states carry values fixed when asked; the others take
the values their owners hold at the grant. -/
inductive WriteRequest where
  | answer (f : FeedId) (a : Answer)
  | globalAnswer (a : GlobalAnswer)
  | sheetState (take : Nat) (sheet : HostAddr) (state : SheetState)
  | progress (take : Nat) (sheet : HostAddr)
  | link (f : FeedId)
  | live (f : FeedId)
  | committed (f : FeedId)
  | period (f : FeedId)
  | mirror (f : FeedId)
  | message
deriving DecidableEq, Repr

/-- Which check asked for an extent entry. -/
inductive EntryUse where
  | mover
  | refeed
  | browse
  | index
deriving DecidableEq, Repr

/-- A read asked of the Record Port (section 8.4). -/
inductive ReadRequest where
  | pageHeader
  | timeValue
  | settings (f : FeedId)
  | common (f : FeedId)
  | stagedAddress (f : FeedId)
  | sheetHeader (f : FeedId) (sheet : HostAddr)
  | armEntry (f : FeedId) (sheet : HostAddr) (entry : Nat)
  /-- A reread of a take's posted counts; `refill` says that a REFILL waits for it (R84). -/
  | posted (f : FeedId) (take : Nat) (sheet : HostAddr) (refill : Bool)
  | entry (use : EntryUse) (take : Nat) (sheet : HostAddr) (entry : Nat)
deriving DecidableEq, Repr

/-- The outstanding read (R146), with its remaining time and whether its result is still wanted (R149). `number`, the
model's own (log entry 36), tells a completion that answers an earlier read (R147, R150). -/
structure Outstanding where
  number    : Nat
  request   : ReadRequest
  remaining : Nat
  wanted    : Bool
deriving DecidableEq, Repr

/-- The Record Port. -/
structure Port where
  writes      : List WriteRequest
  reads       : List ReadRequest
  outstanding : Option Outstanding
  /-- The model's own (log entry 36): how many reads have been issued, which is the number the next one gets. -/
  issued      : Nat
deriving DecidableEq, Repr

/-- The four requesters of the link (R142). -/
inductive Requester where
  | recordPort
  | indexWriter
  | mover
  | browseWriter
deriving DecidableEq, Repr

/-- What a burst carries over the link; `message` is the interrupt message, a write to the card's message address (R144). -/
inductive Payload where
  | write (addr : HostAddr) (bytes : List Byte)
  | read (addr : HostAddr) (length : Nat)
  | message (addr : HostAddr) (data : List Byte)
deriving DecidableEq, Repr

/-- The granted burst that keeps the link busy (R142); `slot` is the slot an essence burst reads from. -/
structure Burst where
  source  : Requester
  payload : Payload
  slot    : Option SlotId
deriving DecidableEq, Repr

/-- The last grant between the two picture writers (R143). -/
inductive LastGrant where
  | none
  | essence
  | browse
deriving DecidableEq, Repr

/-- The Link Arbiter: the burst the link is busy with, and the last grant. -/
structure Arbiter where
  busy      : Option Burst
  lastGrant : LastGrant
deriving DecidableEq, Repr

/-- What has been delivered to the host over the link. -/
inductive Delivery where
  | write (addr : HostAddr) (bytes : List Byte)
  | message (addr : HostAddr) (data : List Byte)
deriving DecidableEq, Repr

/-- The Notice Unit: each feed's pending cause set as the cause mirror's bits (section 11.2), the global pending mark
and the message-owed mark. -/
structure Notices where
  causes      : Vector (BitVec 9) 16
  globalMark  : Bool
  messageOwed : Bool
deriving DecidableEq, Repr

/-- The blocks that act on their own. -/
structure Engine where
  takes   : List Take
  /-- MODEL: the number the next take context gets. -/
  nextId  : Nat
  /-- MODEL: the number the next index record gets. -/
  nextSeq : Nat
  places  : Vector Places 16
  slots   : Vector (Option Slot) 96
  held    : Vector (List SlotId) 16
  opened  : Vector (Option OpenFrame) 16
  written : Vector (List WrittenFrame) 16
  board   : Vector Board 16
  mover   : Mover
  reducer : Reducer
  writer  : Writer
  port    : Port
  arbiter : Arbiter
  notices : Notices
deriving DecidableEq, Repr

/-! ## The Attention Unit and the front -/

/-- Part states (section 9.5). -/
inductive PartState where
  | standby
  | starting
  | running
deriving DecidableEq, Repr

/-- A feed's pending request (R160): its code, and whether it is in hand or still waiting. -/
structure PendingRequest where
  request : FeedRequest
  inHand  : Bool
deriving DecidableEq, Repr

/-- The request in service (R162) that waits for a read, with what it has learnt so far. -/
inductive Service where
  | load (f : FeedId)
  | loadCommon (f : FeedId)
  | armAddress (f : FeedId)
  | armHeader (f : FeedId) (sheet : HostAddr)
  | armEntries (f : FeedId) (sheet : HostAddr) (header : SheetHeader) (entry : Nat) (rejected : List Nat)
  | timeLoad
  | start
deriving DecidableEq, Repr

/-- The Attention Unit. -/
structure Attention where
  part       : PartState
  pending    : Vector (Option PendingRequest) 16
  global     : Option GlobalRequest
  service    : Option Service
  lastServed : Option FeedId
  answers    : Vector Answer 16
  answer     : GlobalAnswer
deriving DecidableEq, Repr

/-- The PART_STATUS flags (R175). -/
structure StatusFlags where
  resetSeen        : Bool
  linkFault        : Bool
  pageFault        : Bool
  attentionIgnored : Bool
deriving DecidableEq, Repr

/-- Card DRAM: the bytes that do not read as an unlisted address reads, in strictly rising address order. -/
abbrev Dram := List Host.Cell

/-- The lanes, the clock, the registers, the Attention Unit and card DRAM. -/
structure Front where
  dram        : Dram
  refCount    : Count
  refLatch    : BitVec 16
  pendingLoad : Option TimeLoad
  pageBase    : HostAddr
  noticeMask  : BitVec 17
  flags       : StatusFlags
  receivers   : Vector Receiver 16
  timers      : Vector FeedTimer 16
  reduce      : Vector (Option ReduceContext) 16
  attention   : Attention
  /-- MODEL: the word the last register read returned to the host. -/
  readData    : BitVec 32
  /-- MODEL: what the link has delivered to the host, oldest first. -/
  delivered   : List Delivery
  /-- MODEL: how many free values have been used. -/
  freeCount   : Nat
deriving DecidableEq, Repr

/-- The machine. -/
structure State where
  /-- The commands that wait, first in, first out. -/
  pending : List Instr
  front   : Front
  eng     : Engine
deriving DecidableEq, Repr

/-! ## After reset -/

/-- An empty drop tally. -/
def Tally.zero : Tally := ⟨0, 0, 0, 0⟩

/-- Label 00:00:00:00 with day number 0, the value of a timecode field nothing has been written to (R166, R96). -/
def Timecode.zero : Timecode := ⟨⟨0, 0, 0, 0⟩, 0⟩

/-- R24: a Feed Receiver after reset. -/
def Receiver.reset : Receiver where
  enabled := false
  signal := false
  link := .dark
  candidate := false
  hasLocked := false
  relock := none
  active := none
  waiting := none
  inHeader := false
  line := .empty
  metadata := []
  changed := []
  tally := .zero
  expected := none

/-- R37: a feed's timer state after reset. -/
def FeedTimer.reset : FeedTimer := ⟨[], none, false, none⟩

/-- R168: the Attention Unit after reset. -/
def Attention.reset : Attention where
  part := .standby
  pending := Vector.replicate 16 none
  global := none
  service := none
  lastServed := none
  answers := Vector.replicate 16 ⟨0, none, none, 0⟩
  answer := ⟨0, none, none⟩

/-- R175: the flags after reset. -/
def StatusFlags.reset : StatusFlags := ⟨true, false, false, false⟩

/-- No take stands anywhere (R97). -/
def Places.none : Places := ⟨.none, .none, [], [], .none⟩

/-- The blocks' state after power-on reset and host-link reset: R67, R97, R120, R138, R150, R176. -/
def Engine.reset : Engine where
  takes := []
  nextId := 0
  nextSeq := 0
  places := Vector.replicate 16 Places.none
  slots := Vector.replicate 96 none
  held := Vector.replicate 16 []
  opened := Vector.replicate 16 none
  written := Vector.replicate 16 []
  board := Vector.replicate 16 ⟨0, .zero⟩
  mover := ⟨.idle, none⟩
  reducer := ⟨none, none, none, none⟩
  writer := ⟨none, none⟩
  port := ⟨[], [], none, 0⟩
  arbiter := ⟨none, .none⟩
  notices := ⟨Vector.replicate 16 0, false, false⟩

/-- The front after power-on reset: R24, R37, R138, R168, R175, R176. -/
def Front.reset : Front where
  dram := []
  refCount := 0
  refLatch := 0
  pendingLoad := none
  pageBase := 0
  noticeMask := 0
  flags := .reset
  receivers := Vector.replicate 16 .reset
  timers := Vector.replicate 16 .reset
  reduce := Vector.replicate 16 none
  attention := .reset
  readData := 0
  delivered := []
  freeCount := 0

/-- The machine right after power-on reset, with no command waiting. -/
def State.reset : State := ⟨[], .reset, .reset⟩

end Sys2Proof.Machine
end

