-- ==== Sys2Proof/Machine/Ops.lean ====
section
/-! DEFINITION. Named operations that every chapter uses: byte order, Reference Count comparison, saturating counts,
indexed updates, and access to takes, places and slots. -/

namespace Sys2Proof.Machine

/-! ## Byte order (R177) -/

/-- The number whose bytes are `bs`, least significant first. -/
def leNat : List Byte → Nat
  | [] => 0
  | b :: bs => b.toNat + 256 * leNat bs

/-- `n` bytes of `v`, least significant first. -/
def leBytes : Nat → Nat → List Byte
  | 0, _ => []
  | n + 1, v => BitVec.ofNat 8 v :: leBytes n (v / 256)

/-- The `len` bytes at offset `off` of a structure, read as a number. -/
def fieldAt (bytes : List Byte) (off len : Nat) : Nat :=
  leNat ((bytes.drop off).take len)

/-- `bytes` with zero bytes behind it, `n` bytes in all (R177: reserved bytes are written as 0). -/
def padTo (n : Nat) (bytes : List Byte) : List Byte :=
  (bytes ++ List.replicate (n - bytes.length) 0).take n

/-! ## Numbers -/

/-- 00_scope, Numbers and ranges: `v` clamped to `lo..hi`. -/
def clamp (lo hi v : Nat) : Nat := max lo (min v hi)

/-- R10: a count of the drop tally stays at 65,535. -/
def bump (n : Nat) : Nat := if n < 65535 then n + 1 else n

/-- Distance of two numbers. -/
def distance (a b : Nat) : Nat := (a - b) + (b - a)

/-- R26: `t1` is at or after `t0`. -/
def Count.atOrAfter (t0 t1 : Count) : Bool := (t1 - t0).toNat < 2 ^ 47

/-- R146: the time an issued read may take, 50 ms. -/
def readLimit : Nat := 1350000

/-- R34: the wait of a pending time load, two seconds. -/
def loadWait : Nat := 54000000

/-- R52: bytes of one frame slot. -/
def slotBytes : Nat := 9437184

/-- R112: places of the ordinary event records. -/
def eventPlaces : Nat := 488

/-- R72: takes a Closing list may hold. -/
def closingLimit : Nat := 4

/-- R80: the position counter at which a take is granted no further position. -/
def positionLimit : Nat := 2 ^ 32 - 1

/-! ## Indexed updates -/

/-- `v` with entry `i` replaced by what `g` makes of it. -/
def upd {α : Type} {n : Nat} (v : Vector α n) (i : Fin n) (g : α → α) : Vector α n :=
  v.set i (g v[i])

/-- The feeds in round-robin order after `last` (R58, R127, R162): feed 0 first when there is none. -/
def feedsAfter : Option FeedId → List FeedId
  | none => List.finRange 16
  | some f => (List.finRange 16).map fun i => f + i + 1

/-! ## Access -/

/-- Entry `f` of a Receiver. -/
def Front.updReceiver (x : Front) (f : FeedId) (g : Receiver → Receiver) : Front :=
  { x with receivers := upd x.receivers f g }

def Front.updTimer (x : Front) (f : FeedId) (g : FeedTimer → FeedTimer) : Front :=
  { x with timers := upd x.timers f g }

/-- The settings that serve feed `f`; a feed that never had settings has none of its own (R24), and no rule reads them. -/
def Receiver.settings (r : Receiver) : Settings :=
  r.active.getD ⟨.marked, .fps25, 0, 0, 0, 0, 0, 0, 0, 0, 0, 0, false, 0, 0, 0⟩

def Front.settings (x : Front) (f : FeedId) : Settings := x.receivers[f].settings

/-- The take context numbered `t`. -/
def Engine.take? (e : Engine) (t : Nat) : Option Take := e.takes.find? (fun k => k.id == t)

def Engine.updTake (e : Engine) (t : Nat) (g : Take → Take) : Engine :=
  { e with takes := e.takes.map fun k => if k.id = t then g k else k }

def Engine.updPlaces (e : Engine) (f : FeedId) (g : Places → Places) : Engine :=
  { e with places := upd e.places f g }

def Engine.updSlot (e : Engine) (i : SlotId) (g : Slot → Slot) : Engine :=
  { e with slots := upd e.slots i (Option.map g) }

/-- The Live take of feed `f`. -/
def Engine.liveTake (e : Engine) (f : FeedId) : Option Take := e.places[f].live.bind e.take?

/-- The Staged take of feed `f`. -/
def Engine.stagedTake (e : Engine) (f : FeedId) : Option Take := e.places[f].staged.bind e.take?

/-- The Live take of feed `f` if it is RECORDING. -/
def Engine.recordingTake (e : Engine) (f : FeedId) : Option Take :=
  (e.liveTake f).filter fun t => t.state = .recording

/-- The Live take, ARMED or RECORDING, and the Closing takes of feed `f` (R71, R170). An admitted frame asks their rereads in
this order, Live first and then the Closing list from its head: DESIGN CHOICE, log entry 46. -/
def Engine.standingTakes (e : Engine) (f : FeedId) : List Take :=
  (e.liveTake f).toList ++ e.places[f].closing.filterMap e.take?

/-- The takes of feed `f` that a REFILL rereads (R84): Live if RECORDING, and the Closing list; asked in this order: DESIGN
CHOICE, log entry 46. -/
def Engine.rereadTakes (e : Engine) (f : FeedId) : List Take :=
  (e.recordingTake f).toList ++ e.places[f].closing.filterMap e.take?

/-- The feed has a Live, Staged or Closing take (R157). -/
def Places.any (p : Places) : Bool := p.live.isSome || p.staged.isSome || !p.closing.isEmpty

/-- The feed's held slots with their records, oldest first (R54). -/
def Engine.heldSlots (e : Engine) (f : FeedId) : List (SlotId × Slot) :=
  e.held[f].filterMap fun i => e.slots[i].map fun s => (i, s)

end Sys2Proof.Machine
end

