-- ==== Sys2Proof/Machine/Flags.lean ====
section
/-! DEFINITION. Status and cause flags: the cause bits of the mirror (section 11.2), the NOTICE word and its masked value
(R171, R174), the PART_STATUS word (R175), and what the host reads at each offset of the register window (R168). -/

namespace Sys2Proof.Machine

/-- Notice causes (R169, R170). -/
inductive Cause where
  | takeStarted
  | takeClosed
  | stride
  | answer
  | gap
  | discontinuity
  | lost
  | starved
  | cadenceOff
deriving DecidableEq, Repr

/-- Section 11.2: the cause mirror's bit for a cause. -/
def Cause.bit : Cause → BitVec 9
  | .takeStarted => 0x001
  | .takeClosed => 0x002
  | .stride => 0x004
  | .answer => 0x008
  | .gap => 0x010
  | .discontinuity => 0x020
  | .lost => 0x040
  | .starved => 0x080
  | .cadenceOff => 0x100

/-- R169: the event causes, bits 0 to 5. -/
def eventCauses : BitVec 9 := 0x03F

/-- The bit of a cause when `b` holds. -/
def Cause.bitIf (c : Cause) (b : Bool) : BitVec 9 := if b then c.bit else 0

/-- R171: bit `i` of NOTICE. -/
def Notices.bit (n : Notices) (i : Fin 17) : Bool :=
  if h : i.val < 16 then n.causes[i.val] != 0 else n.globalMark

/-- R171: the NOTICE word, 16 feed bits and the global bit. -/
def Notices.word (n : Notices) : BitVec 17 := BitVec.ofFnLE n.bit

/-- R174: the masked value is nonzero. -/
def Notices.maskedOn (mask : BitVec 17) (n : Notices) : Bool := n.word &&& mask != 0

/-- R175: the code of the part state. -/
def PartState.code : PartState → Nat
  | .standby => 0
  | .starting => 1
  | .running => 2

/-- R175, section 11.1: the PART_STATUS word. -/
def partStatusWord (p : PartState) (g : StatusFlags) : BitVec 32 :=
  BitVec.ofNat 32 (p.code + (if g.resetSeen then 0x100 else 0) + (if g.linkFault then 0x200 else 0) +
    (if g.pageFault then 0x400 else 0) + (if g.attentionIgnored then 0x800 else 0))

/-- R168, section 11.1: the word the host reads at a window offset. ATTENTION reads as 0. -/
def registerWord (s : State) (offset : BitVec 8) : BitVec 32 :=
  match offset.toNat with
  | 0x00 => s.front.pageBase.extractLsb' 0 32
  | 0x04 => s.front.pageBase.extractLsb' 32 32
  | 0x0C => s.eng.notices.word.setWidth 32
  | 0x10 => s.front.noticeMask.setWidth 32
  | 0x14 => partStatusWord s.front.attention.part s.front.flags
  | 0x18 => s.front.refCount.extractLsb' 0 32
  | 0x1C => s.front.refLatch.setWidth 32
  | _ => 0

end Sys2Proof.Machine
end

