-- ==== Sys2Proof/Machine/Port.lean ====
section
/-! DEFINITION. Asking the Record Port (R145, R146, R149): writes with their merging, reads, rereads of posted counts, and
the withdrawal of reads whose result is no longer wanted. -/

namespace Sys2Proof.Machine

/-- R145: the kinds of write that are merged with a waiting write of the same group. -/
def WriteRequest.merges : WriteRequest → Bool
  | .answer _ _ | .globalAnswer _ | .sheetState _ _ _ | .message => false
  | .progress _ _ | .link _ | .live _ | .committed _ | .period _ | .mirror _ => true

/-- R145: a write joins the write list, unless it merges into one of the same group that waits there. -/
def Engine.ask (e : Engine) (w : WriteRequest) : Engine :=
  if w.merges && e.port.writes.contains w then e
  else { e with port := { e.port with writes := e.port.writes ++ [w] } }

/-- R146: a read joins the read list. -/
def Engine.askRead (e : Engine) (r : ReadRequest) : Engine :=
  { e with port := { e.port with reads := e.port.reads ++ [r] } }

/-- The read is a posted-count reread of take `t`. -/
def ReadRequest.rereads (t : Nat) : ReadRequest → Bool
  | .posted _ k _ _ => k == t
  | _ => false

/-- A reread that a REFILL waits for as well (R84). -/
def ReadRequest.withRefill (refill : Bool) : ReadRequest → ReadRequest
  | .posted f k a old => .posted f k a (old || refill)
  | r => r

/-- R71, R146: a reread of the take's posted counts, merged into one that waits in the read list. -/
def Engine.askReread (e : Engine) (refill : Bool) (t : Take) : Engine :=
  if e.port.reads.any (ReadRequest.rereads t.id) then
    { e with port := { e.port with
      reads := e.port.reads.map fun r => if r.rereads t.id then r.withRefill refill else r } }
  else e.askRead (.posted t.feed t.id t.sheet refill)

/-- R149: reads that satisfy `p` leave the read list, and the outstanding one's result will be disregarded. -/
def Engine.withdrawReads (e : Engine) (p : ReadRequest → Bool) : Engine :=
  { e with port := { e.port with
    reads := e.port.reads.filter fun r => !p r
    outstanding := e.port.outstanding.map fun o => if p o.request then { o with wanted := false } else o } }

/-- The read serves an entry check of kind `use`. -/
def ReadRequest.entryFor (use : EntryUse) : ReadRequest → Bool
  | .entry u _ _ _ => u == use
  | _ => false

/-- The read is a reread or an entry read of take `t` (R149). -/
def ReadRequest.ofTake (t : Nat) : ReadRequest → Bool
  | .posted _ k _ _ => k == t
  | .entry _ k _ _ => k == t
  | _ => false

/-- The read is a reread or an entry read of some take (R151). -/
def ReadRequest.forTake : ReadRequest → Bool
  | .posted _ _ _ _ | .entry _ _ _ _ => true
  | .pageHeader | .timeValue | .settings _ | .common _ | .stagedAddress _ | .sheetHeader _ _ | .armEntry _ _ _ => false

/-- The read is a refeed entry read of take `t` (R91). -/
def ReadRequest.refeedOf (t : Nat) : ReadRequest → Bool
  | .entry .refeed k _ _ => k == t
  | _ => false

/-- A sheet write (progress block or state) of take `t`. -/
def WriteRequest.ofTake (t : Nat) : WriteRequest → Bool
  | .sheetState k _ _ => k == t
  | .progress k _ => k == t
  | _ => false

/-- R70: a sheet state write, preceded by the progress block. -/
def Engine.askState (e : Engine) (t : Nat) (sheet : HostAddr) (st : SheetState) : Engine :=
  (e.ask (.progress t sheet)).ask (.sheetState t sheet st)

end Sys2Proof.Machine
end

