-- ==== Sys2Proof/Machine/Notice.lean ====
section
/-! DEFINITION. The Notice Unit (chapter 10): changes of a feed's pending cause set with their mirror writes, the
interrupt message, event causes, condition causes and the global pending mark. -/

namespace Sys2Proof.Machine

/-- R174: after a change, a masked value that has gone from zero (`before`) to nonzero owes one message: asked when
the part is RUNNING, held as the message-owed mark otherwise. -/
def Engine.oweMessage (x : Front) (before : Bool) (e : Engine) : Engine :=
  if !before && e.notices.maskedOn x.noticeMask then
    (if x.attention.part = .running then e.ask .message
     else { e with notices := { e.notices with messageOwed := true } })
  else e

/-- R173: feed `f`'s pending cause set becomes `new`; a change asks the mirror write while the part is RUNNING. -/
def Engine.setCauses (x : Front) (f : FeedId) (new : BitVec 9) (e : Engine) : Engine :=
  if new = e.notices.causes[f] then e
  else
    let changed := { e with notices := { e.notices with causes := upd e.notices.causes f fun _ => new } }
    let mirrored := if x.attention.part = .running then changed.ask (.mirror f) else changed
    mirrored.oweMessage x (e.notices.maskedOn x.noticeMask)

/-- R169: an event cause joins feed `f`'s set. -/
def Engine.raise (x : Front) (f : FeedId) (c : Cause) (e : Engine) : Engine :=
  e.setCauses x f (e.notices.causes[f] ||| c.bit)

/-- R7: the feed's loss condition. -/
def Receiver.lossCondition (r : Receiver) : Bool := r.hasLocked && r.link != .locked

/-- R170: some Live or Closing take of feed `f` is essence-starved or index-starved. -/
def Engine.starvedFeed (e : Engine) (f : FeedId) : Bool :=
  (e.standingTakes f).any fun t => t.essenceStarved || t.indexStarved

/-- R170: the condition causes whose conditions hold for feed `f`. -/
def conditionCauses (x : Front) (e : Engine) (f : FeedId) : BitVec 9 :=
  Cause.lost.bitIf x.receivers[f].lossCondition ||| Cause.starved.bitIf (e.starvedFeed f) |||
    Cause.cadenceOff.bitIf x.timers[f].cadenceOff

/-- R170: feed `f`'s condition causes follow their conditions. -/
def Engine.syncConditions (x : Front) (f : FeedId) (e : Engine) : Engine :=
  e.setCauses x f (e.notices.causes[f] &&& eventCauses ||| conditionCauses x e f)

/-- R172: a global answer sets the global pending mark. -/
def Engine.raiseGlobal (x : Front) (e : Engine) : Engine :=
  Engine.oweMessage x (e.notices.maskedOn x.noticeMask)
    { e with notices := { e.notices with globalMark := true } }

end Sys2Proof.Machine
end

