-- ==== Sys2Proof/Config.lean ====
section
/-! DEFINITION. The free values of the model: quantities the spec leaves open although the part goes on. Each is a
constant without a body, so that nothing can be proved about its value; one that is used afresh each time is applied to a
plain counter that State holds. -/

namespace Sys2Proof

/-- R150: how many bytes of the burst being sent had left the part when a reset discarded it. The spec says only that
what had not left is not delivered. DESIGN CHOICE, safe: a free value (log entry 4). -/
opaque Config.bytesSentAtReset : Nat → Nat

/-- R147: byte `i` of the data of a completion that carried fewer bytes than the read asked for. The spec names no
such completion. DESIGN CHOICE, safe: a free value (log entry 5). -/
opaque Config.missingReadByte : Nat → Nat → Byte

/-- R144: the address of the interrupt message, which the card's PCIe message settings give. The spec states no value and
no register of the part that holds it. DESIGN CHOICE, safe: a free value (log entry 22). -/
opaque Config.messageAddress : HostAddr

/-- R144: the data of the interrupt message, which the card's PCIe message settings give. DESIGN CHOICE, safe: a free value
(log entry 22). -/
opaque Config.messageData : List Byte

end Sys2Proof
end

