-- ==== Sys2Proof/Machine/Timecode.lean ====
section
/-! DEFINITION. The Timecode Unit (chapter 3): rate classes, label validity, the conversions between labels and day
numbers, placement with the flywheel, forward distance, and the continuity classification of a take. -/

namespace Sys2Proof.Machine

/-- R38: the nominal frame period in reference ticks. -/
def RateClass.pnom : RateClass → Nat
  | .fps25 => 1080000
  | .fps50 => 540000
  | .drop30 => 900900
  | .drop60 => 450450

/-- R38: labels per second. -/
def RateClass.fps : RateClass → Nat
  | .fps25 => 25
  | .fps50 => 50
  | .drop30 => 30
  | .drop60 => 60

/-- R38: labels dropped in each minute whose number is not a multiple of 10. -/
def RateClass.dropped : RateClass → Nat
  | .fps25 => 0
  | .fps50 => 0
  | .drop30 => 2
  | .drop60 => 4

/-- R38: the number of labels in a day. -/
def RateClass.dayCount : RateClass → Nat
  | .fps25 => 2160000
  | .fps50 => 4320000
  | .drop30 => 2589408
  | .drop60 => 5178816

/-- Section 11.8: the code of a rate class. -/
def RateClass.code : RateClass → Nat
  | .fps25 => 1
  | .fps50 => 2
  | .drop30 => 3
  | .drop60 => 4

/-- R39: the label is valid under the class. -/
def RateClass.valid (c : RateClass) (l : Label) : Bool :=
  l.hh < 24 && l.mm < 60 && l.ss < 60 && l.ff < c.fps &&
    !(l.mm % 10 != 0 && l.ss == 0 && l.ff < c.dropped)

/-- R40, R41: the day number of a valid label. -/
def RateClass.dayNumber (c : RateClass) (l : Label) : Nat :=
  let m := 60 * l.hh + l.mm
  let t := 3600 * l.hh + 60 * l.mm + l.ss
  t * c.fps + l.ff - c.dropped * (m - m / 10)

/-- R42: the undropped count of a day number. -/
def RateClass.undropped (c : RateClass) (n : Nat) : Nat :=
  match c with
  | .fps25 | .fps50 => n
  | .drop30 =>
    let r := n % 17982
    n + 18 * (n / 17982) + (if 2 ≤ r then 2 * ((r - 2) / 1798) else 0)
  | .drop60 =>
    let r := n % 35964
    n + 36 * (n / 35964) + (if 4 ≤ r then 4 * ((r - 4) / 3596) else 0)

/-- R42: the label of a day number. -/
def RateClass.label (c : RateClass) (n : Nat) : Label :=
  let u := c.undropped n
  let s := u / c.fps
  { hh := s / 3600, mm := s / 60 % 60, ss := s % 60, ff := u % c.fps }

/-- The label and day number of day number `n`. -/
def RateClass.timecode (c : RateClass) (n : Nat) : Timecode := ⟨c.label n, n⟩

/-- R43: the placement of a header's label, with the flywheel. `expected` is the feed-level expected day number. -/
def placeLabel (c : RateClass) (expected : Option Nat) (present : Bool) (l : Label) : Placed :=
  if present && c.valid l then ⟨⟨l, c.dayNumber l⟩, false⟩ else ⟨c.timecode (expected.getD 0), true⟩

/-- R44: the expected day number after a header was placed. -/
def RateClass.nextDay (c : RateClass) (day : Nat) : Nat := (day + 1) % c.dayCount

/-- R48: the forward distance from `a` to `b`. -/
def RateClass.forward (c : RateClass) (a b : Nat) : Nat :=
  (b + c.dayCount - a % c.dayCount) % c.dayCount

/-- R48: `b` is at or after `a`. -/
def RateClass.atOrAfter (c : RateClass) (a b : Nat) : Bool := c.forward a b < c.dayCount / 2

/-- R49: an AT_TIMECODE condition with the sheet's parameter holds for a placed day number. -/
def RateClass.timecodeHolds (c : RateClass) (param : BitVec 64) (day : Nat) : Bool :=
  c.atOrAfter ((param.setWidth 32).toNat % c.dayCount) day

/-- A classification (R46): continuous, GAP with its missing count, or DISCONTINUITY. -/
inductive Continuity where
  | continuous
  | gap (missing : Nat)
  | discontinuity
deriving DecidableEq, Repr

/-- R46: one of the tally's counts is above 0. -/
def Tally.nonzero (t : Tally) : Bool := 0 < t.overrun || 0 < t.mismatch || 0 < t.broken || 0 < t.emptyFrame

/-- R46: delta of a placed day number `n` against the take's last slotted day number. -/
def RateClass.delta (c : RateClass) (last n : Nat) : Nat := c.forward ((last + 1) % c.dayCount) n

/-- R46: the classification of a slotted frame. -/
def RateClass.classify (c : RateClass) (gapLimit last n : Nat) (t : Tally) : Continuity :=
  let d := c.delta last n
  if d = 0 then (if t.nonzero then .gap 0 else .continuous)
  else if d ≤ gapLimit then .gap d else .discontinuity

/-- R29, R30: the deviation of an interval from the nominal period is within the cadence tolerance. -/
def inTolerance (c : RateClass) (tol d : Nat) : Bool := distance d c.pnom * 10000 ≤ tol * c.pnom

end Sys2Proof.Machine
end

