-- ==== Sys2Proof/Machine/Operands.lean ====
section
/-! DEFINITION. Reading operands: the fields of lane symbols (R179), of the ATTENTION word (section 11.1), and of the
structures the part fetches from host memory (sections 11.2 to 11.4). -/

namespace Sys2Proof.Machine

/-! ## Lane symbols -/

/-- A Frame Header's fields (R179). -/
structure HeaderFields where
  rateCode  : Nat
  tcPresent : Bool
  w         : Nat
  h         : Nat
  label     : Label
  checkSum  : Nat
deriving DecidableEq, Repr

/-- R179: the fields of the twelve data characters of a Frame Header. -/
def parseHeader (chars : List Byte) : HeaderFields where
  rateCode := fieldAt chars 0 1
  tcPresent := fieldAt chars 1 1 % 2 == 1
  w := fieldAt chars 2 2
  h := fieldAt chars 4 2
  label := ⟨fieldAt chars 9 1, fieldAt chars 8 1, fieldAt chars 7 1, fieldAt chars 6 1⟩
  checkSum := fieldAt chars 10 2

/-- R179: 0xA5A5 plus the sum of the ten data characters before the check sum, modulo 65,536. -/
def headerSum (chars : List Byte) : Nat :=
  (0xA5A5 + ((chars.take 10).map (·.toNat)).sum) % 65536

/-- R3, R179: the header's check sum field equals the sum over its other fields. -/
def headerGood (chars : List Byte) : Bool := (parseHeader chars).checkSum == headerSum chars

/-- R11: the number of a complete Line Marker; none when it was cut off (R2). -/
def parseMarker (chars : List Byte) : Option Nat :=
  if 2 ≤ chars.length then some (fieldAt chars 0 2) else none

/-- R179: the pixel pair of a complete Sample data symbol; none when it is incomplete. -/
def parsePair (chars : List Byte) : Option PixelPair :=
  if 5 ≤ chars.length then some (BitVec.ofNat 40 (fieldAt chars 0 5)) else none

/-- The complete items in a run of data characters, seven each, at most `n` of them. -/
def parseItems : Nat → List Byte → List Item
  | 0, _ => []
  | n + 1, chars =>
    if 7 ≤ chars.length then
      ⟨BitVec.ofNat 8 (fieldAt chars 0 1), BitVec.ofNat 48 (fieldAt chars 1 6)⟩ :: parseItems n (chars.drop 7)
    else []

/-- R19, R179: the items a Metadata Packet applies: those whose last field arrived; none when the item count lies
outside 1..8 or never arrived. -/
def parsePacket : List Byte → List Item
  | [] => []
  | count :: rest => if 1 ≤ count.toNat && count.toNat ≤ 8 then parseItems count.toNat rest else []

/-- The four samples of a pixel pair as sixteen-bit containers in the order Cb, Y left, Cr, Y right (section 11.7). -/
def packPair (p : PixelPair) : List Byte :=
  leBytes 2 (p.toNat % 1024) ++ leBytes 2 (p.toNat / 2 ^ 10 % 1024) ++
    leBytes 2 (p.toNat / 2 ^ 20 % 1024) ++ leBytes 2 (p.toNat / 2 ^ 30 % 1024)

/-- Section 11.7: a line of pixel pairs in its slot. -/
def packLine (pairs : List PixelPair) : List Byte := pairs.flatMap packPair

/-! ## Register words -/

/-- A request code (section 11.8). -/
inductive RequestCode where
  | feed (r : FeedRequest)
  | global (r : GlobalRequest)
deriving DecidableEq, Repr

def FeedRequest.code : FeedRequest → Nat
  | .load => 0x01
  | .loadCommon => 0x02
  | .arm => 0x03
  | .stop => 0x04
  | .halt => 0x05
  | .abort => 0x06
  | .refill => 0x07
  | .feedReset => 0x08

def GlobalRequest.code : GlobalRequest → Nat
  | .start => 0x10
  | .standby => 0x11
  | .timeLoad => 0x12

/-- Section 11.8: the request a code names; code 0x00 and every code not listed names none. -/
def parseRequest : Nat → Option RequestCode
  | 0x01 => some (.feed .load)
  | 0x02 => some (.feed .loadCommon)
  | 0x03 => some (.feed .arm)
  | 0x04 => some (.feed .stop)
  | 0x05 => some (.feed .halt)
  | 0x06 => some (.feed .abort)
  | 0x07 => some (.feed .refill)
  | 0x08 => some (.feed .feedReset)
  | 0x10 => some (.global .start)
  | 0x11 => some (.global .standby)
  | 0x12 => some (.global .timeLoad)
  | _ => none

/-- Section 11.1: the feed mask of an ATTENTION word. -/
def attentionMask (word : BitVec 32) : BitVec 16 := word.extractLsb' 0 16

/-- Section 11.1: the request code of an ATTENTION word; bits 24 to 31 are reserved. -/
def attentionCode (word : BitVec 32) : Nat := (word.extractLsb' 16 8).toNat

/-! ## Structures fetched from host memory -/

/-- Byte `i` of a completion's data; a byte that did not come is a free value (log entry 5). -/
def completedByte (use : Nat) (bytes : List Byte) (i : Nat) : Byte :=
  match bytes[i]? with
  | some b => b
  | none => Config.missingReadByte use i

/-- The `n` bytes a read asked for, taken from the data of its completion. -/
def completedBytes (use n : Nat) (bytes : List Byte) : List Byte :=
  (List.range n).map (completedByte use bytes)

/-- Section 11.8: framing codes. -/
def parseFraming : Nat → Option Framing
  | 1 => some .marked
  | 2 => some .counted
  | _ => none

/-- Section 11.8: rate class codes. -/
def parseRate : Nat → Option RateClass
  | 1 => some .fps25
  | 2 => some .fps50
  | 3 => some .drop30
  | 4 => some .drop60
  | _ => none

/-- R155, R156: a settings block (section 11.3), checked and brought into range; a failing block gives the field index
of its first failing field. -/
def parseSettings (bytes : List Byte) : Except Nat Block :=
  if fieldAt bytes 0x00 1 = 0 then .ok .disabling
  else match parseFraming (fieldAt bytes 0x01 1) with
  | none => .error 2
  | some framing => match parseRate (fieldAt bytes 0x02 1) with
  | none => .error 3
  | some rate =>
    let w := fieldAt bytes 0x04 2
    let h := fieldAt bytes 0x06 2
    let factor := fieldAt bytes 0x03 1
    if ¬ (w % 2 = 0 ∧ 256 ≤ w ∧ w ≤ 2048) then .error 4
    else if ¬ (144 ≤ h ∧ h ≤ 1152) then .error 5
    else if ¬ (factor = 2 ∨ factor = 3 ∨ factor = 4 ∨ factor = 6 ∨ factor = 8) then .error 12
    else .ok (.enabling {
      framing, rate, w, h, factor
      topSkip := clamp 0 63 (fieldAt bytes 0x08 1)
      lossWindow := clamp 1 60 (fieldAt bytes 0x09 1)
      leftSkip := clamp 0 510 (fieldAt bytes 0x0A 2 / 2 * 2)
      tolerance := clamp 1 500 (fieldAt bytes 0x0C 2)
      gapLimit := max 1 (fieldAt bytes 0x0E 2)
      ceiling := clamp 2 24 (fieldAt bytes 0x10 1)
      lag := clamp 1 8 (fieldAt bytes 0x11 1)
      dither := fieldAt bytes 0x12 1 != 0
      ditherCode := clamp 0 7 (fieldAt bytes 0x13 1)
      ditherPhase := clamp 0 3 (fieldAt bytes 0x14 1)
      stride := fieldAt bytes 0x16 2 })

/-- Section 11.8: start mode codes. -/
def parseStartMode : Nat → Option StartMode
  | 1 => some .immediate
  | 2 => some .atTime
  | 3 => some .atTimecode
  | 4 => some .contiguous
  | _ => none

/-- Section 11.8: stop mode codes. -/
def parseStopMode : Nat → Option StopMode
  | 1 => some .onRequest
  | 2 => some .atTime
  | 3 => some .atTimecode
  | 4 => some .afterFrames
  | _ => none

/-- R71: the three posted counts of a sheet, each clamped to its list size. -/
def parsePosted (bytes : List Byte) : Nat × Nat × Nat :=
  (min 32 (fieldAt bytes 0 1), min 32 (fieldAt bytes 1 1), min 8 (fieldAt bytes 2 1))

/-- R68: a sheet header (section 11.4), its bytes 0x000 to 0x01A; none when a mode code is unknown (R178). -/
def parseSheet (bytes : List Byte) : Option SheetHeader :=
  match parseStartMode (fieldAt bytes 0x05 1), parseStopMode (fieldAt bytes 0x06 1) with
  | some startMode, some stopMode =>
    let posted := parsePosted (bytes.drop 0x18)
    some {
      label := BitVec.ofNat 32 (fieldAt bytes 0x00 4)
      browse := fieldAt bytes 0x04 1 != 0
      startMode, stopMode
      startParam := BitVec.ofNat 64 (fieldAt bytes 0x08 8)
      stopParam := BitVec.ofNat 64 (fieldAt bytes 0x10 8)
      essencePosted := posted.1
      browsePosted := posted.2.1
      indexPosted := posted.2.2 }
  | _, _ => none

/-- An extent entry's address and length in pages (section 11.4). -/
def parseEntry (bytes : List Byte) : HostAddr × Nat :=
  (BitVec.ofNat 64 (fieldAt bytes 0x0 8), fieldAt bytes 0x8 4)

/-- R69: the entry is good. -/
def entryGood (entry : HostAddr × Nat) : Bool := entry.1.toNat % 4096 == 0 && 1 ≤ entry.2

end Sys2Proof.Machine
end

