-- ==== Sys2Proof/Machine/Formats.lean ====
section
/-! DEFINITION. The byte layouts the part writes (chapter 11): answer records, Feed Slot groups, a sheet's progress block
and state, and the index records; and the host addresses of the structures it reads and writes. -/

namespace Sys2Proof.Machine

/-! ## Code values (section 11.8) -/

def Result.code : Result → Nat
  | .done => 1
  | .refusedState => 2
  | .refusedPending => 3
  | .badSetting => 4
  | .badSheet => 5
  | .sheetInUse => 6
  | .linkError => 7
  | .superseded => 8
  | .noPulse => 9

def SheetState.code : SheetState → Nat
  | .armed => 1
  | .staged => 2
  | .recording => 3
  | .closing => 4
  | .closed => 5
  | .cancelled => 6
  | .superseded => 7
  | .aborted => 8

def CloseReason.code : CloseReason → Nat
  | .stopped => 1
  | .halted => 2
  | .stopTime => 3
  | .stopTimecode => 4
  | .frameCount => 5
  | .split => 6
  | .roomExhausted => 7
  | .aborted => 8
  | .feedReset => 9

def BrowseOutcome.code : BrowseOutcome → Nat
  | .written => 1
  | .skippedLate => 2
  | .skippedNoRoom => 3
  | .skippedMoved => 4
  | .disabled => 5

/-- Section 11.2: link state codes. -/
def Link.code : Link → Nat
  | .dark => 0
  | .seeking => 1
  | .locked => 2

def LossCause.code : LossCause → Nat
  | .dark => 1
  | .deadline => 2

def ListName.code : ListName → Nat
  | .essence => 1
  | .browse => 2
  | .index => 3

/-- The code of an optional field, 0 for none. -/
def codeOr {α : Type} (code : α → Nat) (v : Option α) : Nat := (v.map code).getD 0

/-! ## Feed Slot groups (section 11.2) -/

/-- Section 11.4: a label takes four bytes, ff, ss, mm, hh. -/
def labelBytes (l : Label) : List Byte :=
  leBytes 1 l.ff ++ leBytes 1 l.ss ++ leBytes 1 l.mm ++ leBytes 1 l.hh

/-- A label and its day number. -/
def timecodeBytes (t : Timecode) : List Byte := labelBytes t.label ++ leBytes 4 t.day

def answerBytes (a : Answer) : List Byte :=
  padTo 16 (leBytes 4 a.taken.toNat ++ leBytes 1 (codeOr FeedRequest.code a.lastRequest) ++
    leBytes 1 (codeOr Result.code a.lastResult) ++ leBytes 1 a.field)

def globalAnswerBytes (a : GlobalAnswer) : List Byte :=
  padTo 16 (leBytes 4 a.taken.toNat ++ leBytes 1 (codeOr GlobalRequest.code a.lastRequest) ++
    leBytes 1 (codeOr Result.code a.lastResult))

def linkBytes (l : Link) : List Byte := padTo 4 (leBytes 1 l.code)

/-- R72: the Live state and current sheet address; none and 0 without a Live take. -/
def liveBytes (t : Option Take) : List Byte :=
  match t with
  | none => padTo 12 []
  | some k =>
    padTo 4 (leBytes 1 (if k.state = .recording then SheetState.recording.code else SheetState.armed.code)) ++
      leBytes 8 k.sheet.toNat

def committedBytes (b : Board) : List Byte := padTo 16 (leBytes 4 b.committed.toNat ++ timecodeBytes b.lastTc)

/-- R31: a measured period of none is written as 0. -/
def periodBytes (measured : Option Nat) : List Byte := leBytes 8 (measured.getD 0)

def mirrorBytes (causes : BitVec 9) : List Byte := leBytes 4 causes.toNat

/-! ## A sheet (section 11.4) -/

/-- R121, section 11.7: master frame bytes of a take. -/
def Take.mfb (t : Take) : Nat := (t.geom.map fun g => 4 * g.w * g.h).getD 0

/-- R96, R107: a browse count as the progress block and END have it: 0 for a take with browse disabled (log entry 20). -/
def Take.browseField (t : Take) (n : Nat) : Nat := if t.browseOn then n else 0

/-- R96: the progress block. -/
def progressBytes (t : Take) : List Byte :=
  leBytes 4 t.committed ++ leBytes 4 (t.browseField t.browseWritten) ++ leBytes 4 (t.browseField t.browseSkipped) ++
    leBytes 4 t.indexWritten ++
    timecodeBytes (t.firstTc.getD .zero) ++ timecodeBytes (t.lastTc.getD .zero) ++
    leBytes 6 ((t.startCapture.map (·.toNat)).getD 0) ++ leBytes 6 ((t.endCapture.map (·.toNat)).getD 0) ++
    leBytes 4 t.eventsDiscarded ++ leBytes 4 t.framesDiscarded ++ leBytes 2 t.deferredStops ++
    leBytes 1 (codeOr CloseReason.code t.reason) ++ leBytes 1 0 ++ leBytes 8 (t.committed * t.mfb)

def sheetStateBytes (s : SheetState) : List Byte := padTo 4 (leBytes 1 s.code)

/-! ## Index records (section 11.5) -/

/-- The kind codes of section 11.8. -/
def RecordBody.kind : RecordBody → Nat
  | .start _ => 1
  | .frame _ => 2
  | .gap _ _ _ => 3
  | .discontinuity _ _ _ => 4
  | .linkLoss _ _ => 5
  | .linkBack _ => 6
  | .cadenceOff _ => 7
  | .cadenceOk _ => 8
  | .metadata _ _ => 9
  | .starved _ => 10
  | .fed _ => 11
  | .extentRejected _ _ => 12
  | .endRecord => 13

/-- Byte 1 of a record: the kind's flags or code. -/
def RecordBody.flagByte (t : Take) : RecordBody → Nat
  | .frame r =>
    (if r.substituted then 1 else 0) + (if (r.settled.map (·.padded)).getD false then 2 else 0) +
      (if (r.settled.map (·.concealed)).getD false then 4 else 0)
  | .linkLoss _ cause => cause.code
  | .metadata _ none => 8
  | .extentRejected list _ => list.code
  | .endRecord => codeOr CloseReason.code t.reason
  | _ => 0

/-- The four tally counts of a GAP or DISCONTINUITY record. -/
def tallyBytes (t : Tally) : List Byte :=
  leBytes 2 t.overrun ++ leBytes 2 t.mismatch ++ leBytes 2 t.broken ++ leBytes 2 t.emptyFrame

/-- R107: a 16-bit count of END. -/
def count16 (n : Nat) : List Byte := leBytes 2 (min n 65535)

/-- A record's fields from byte 6 on; END takes them from its take (R107). END has no take label: R68 names one for START
and END, R107 and section 11.5 leave it no field (DESIGN CHOICE, log entry 28). -/
def RecordBody.fields (t : Take) : RecordBody → List Byte
  | .start r =>
    leBytes 4 r.label.toNat ++ leBytes 6 r.capture.toNat ++ timecodeBytes r.tc ++ leBytes 2 r.geom.w ++
      leBytes 2 r.geom.h ++ leBytes 1 r.geom.rate.code ++ leBytes 1 r.geom.factor
  | .frame r =>
    timecodeBytes r.tc ++ leBytes 6 r.capture.toNat ++ leBytes 2 ((r.settled.map (·.concealedCount)).getD 0) ++
      leBytes 1 ((r.settled.map (·.outcome.code)).getD 0) ++ leBytes 1 ((r.settled.map (·.extent)).getD 0) ++
      leBytes 6 ((r.settled.map (·.offset)).getD 0)
  | .gap tally missing expected => tallyBytes tally ++ leBytes 2 missing ++ leBytes 4 expected
  | .discontinuity tally previous new => tallyBytes tally ++ leBytes 2 0 ++ leBytes 4 previous ++ leBytes 4 new
  | .linkLoss capture _ => leBytes 6 capture.toNat
  | .linkBack capture => leBytes 6 capture.toNat
  | .cadenceOff measured => leBytes 6 measured
  | .cadenceOk measured => leBytes 6 measured
  | .metadata tag value => leBytes 1 tag.toNat ++ leBytes 1 0 ++ leBytes 6 ((value.map (·.toNat)).getD 0)
  | .starved capture => leBytes 6 capture.toNat
  | .fed capture => leBytes 6 capture.toNat
  | .extentRejected _ entry => leBytes 1 entry
  | .endRecord =>
    leBytes 4 t.committed ++ timecodeBytes (t.lastTc.getD .zero) ++
      leBytes 6 ((t.endCapture.map (·.toNat)).getD 0) ++ count16 (t.browseField t.browseWritten) ++
      count16 (t.browseField t.browseSkipped) ++ count16 t.eventsDiscarded ++ count16 t.framesDiscarded

/-- A record of take `t` written at take position `position`: 32 bytes. -/
def recordBytes (t : Take) (position : Nat) (b : RecordBody) : List Byte :=
  padTo 32 (leBytes 1 b.kind ++ leBytes 1 (b.flagByte t) ++ leBytes 4 position ++ b.fields t)

/-! ## Host addresses -/

/-- Section 11.2: offset `off` of Feed Slot `f`. -/
def slotAddr (page : HostAddr) (f : FeedId) (off : Nat) : HostAddr :=
  page + BitVec.ofNat 64 (0x1000 + 0x100 * f.val + off)

/-- An offset of a structure at `base`. -/
def addrAt (base : HostAddr) (off : Nat) : HostAddr := base + BitVec.ofNat 64 off

/-- Section 11.4: the offset of entry `n` of a list in a sheet. -/
def ListName.entryOffset (l : ListName) (n : Nat) : Nat :=
  match l with
  | .essence => 0x100 + 16 * n
  | .browse => 0x300 + 16 * n
  | .index => 0x500 + 16 * n

/-- The list an entry check consumes. -/
def EntryUse.list : EntryUse → ListName
  | .mover => .essence
  | .refeed => .essence
  | .browse => .browse
  | .index => .index

/-- Where a read reads, and how many bytes (sections 11.2 to 11.4). -/
def ReadRequest.span (page : HostAddr) : ReadRequest → HostAddr × Nat
  | .pageHeader => (addrAt page 0x000, 8)
  | .timeValue => (addrAt page 0x008, 8)
  | .settings f => (slotAddr page f 0x00, 32)
  | .common _ => (addrAt page 0x020, 32)
  | .stagedAddress f => (slotAddr page f 0x20, 8)
  | .sheetHeader _ sheet => (addrAt sheet 0x000, 0x1B)
  | .armEntry _ sheet n => (addrAt sheet (ListName.index.entryOffset n), 16)
  | .posted _ _ sheet _ => (addrAt sheet 0x018, 3)
  | .entry use _ sheet n => (addrAt sheet (use.list.entryOffset n), 16)

/-- R144, R145: the burst a write of the write list becomes when it is granted; an interrupt message goes to the address
and with the data of the card's PCIe message settings. -/
def writePayload (x : Front) (e : Engine) : WriteRequest → Payload
  | .answer f a => .write (slotAddr x.pageBase f 0x80) (answerBytes a)
  | .globalAnswer a => .write (addrAt x.pageBase 0x080) (globalAnswerBytes a)
  | .sheetState _ sheet st => .write (addrAt sheet 0x080) (sheetStateBytes st)
  | .progress t sheet => .write (addrAt sheet 0x040) (((e.take? t).map progressBytes).getD (padTo 64 []))
  | .link f => .write (slotAddr x.pageBase f 0x90) (linkBytes x.receivers[f].link)
  | .live f => .write (slotAddr x.pageBase f 0x94) (liveBytes (e.liveTake f))
  | .committed f => .write (slotAddr x.pageBase f 0xA0) (committedBytes e.board[f])
  | .period f => .write (slotAddr x.pageBase f 0xB0) (periodBytes x.timers[f].measured)
  | .mirror f => .write (slotAddr x.pageBase f 0xC0) (mirrorBytes e.notices.causes[f])
  | .message => .message Config.messageAddress Config.messageData

end Sys2Proof.Machine
end

