-- ==== Sys2Proof/Machine/Index.lean ====
section
/-! DEFINITION. The Index Builder (chapter 6): records joining Index Queues under the record budget, START and END, the
records of a slotted frame, take positions of records, and the spaces extents make. -/

namespace Sys2Proof.Machine

/-! ## Spaces (R69) -/

/-- The bytes of an extent. -/
def Extent.bytes (x : Extent) : Nat := 4096 * x.pages

/-- The bytes of a consumed space. -/
def Space.bytes (sp : Space) : Nat := (sp.extents.map Extent.bytes).sum

/-- The extent that holds byte `b` of the extents' concatenation, and the offset there. -/
def locate : List Extent → Nat → Option (Extent × Nat)
  | [], _ => none
  | x :: xs, b => if b < x.bytes then some (x, b) else locate xs (b - x.bytes)

/-- The host address of byte `b` of a space. -/
def Space.addr (sp : Space) (b : Nat) : HostAddr :=
  ((locate sp.extents b).map fun p => addrAt p.1.base p.2).getD 0

/-- The placement of byte `b` of a space: the extent's entry number and the offset in it. -/
def Space.place (sp : Space) (b : Nat) : Option (Nat × Nat) :=
  (locate sp.extents b).map fun p => (p.1.entry, p.2)

/-- The list of a take with a given name. -/
def Take.space (t : Take) : ListName → Space
  | .essence => t.essence
  | .browse => t.browse
  | .index => t.index

def Take.withSpace (t : Take) (l : ListName) (sp : Space) : Take :=
  match l with
  | .essence => { t with essence := sp }
  | .browse => { t with browse := sp }
  | .index => { t with index := sp }

/-- R68: the number of entries of a list. -/
def ListName.size : ListName → Nat
  | .essence => 32
  | .browse => 32
  | .index => 8

/-! ## Queues and the record budget -/

/-- R112: an ordinary event record. -/
def RecordBody.ordinary : RecordBody → Bool
  | .start _ | .frame _ | .endRecord => false
  | _ => true

/-- A FRAME placeholder. -/
def RecordBody.isFrame : RecordBody → Bool
  | .frame _ => true
  | _ => false

def RecordBody.isEnd : RecordBody → Bool
  | .endRecord => true
  | _ => false

/-- R114: a record is settled when it is queued, a FRAME placeholder when its frame settles. -/
def RecordBody.isSettled : RecordBody → Bool
  | .frame r => r.settled.isSome
  | _ => true

/-- The FRAME placeholder of a frame in slot `i`. -/
def RecordBody.inSlot (i : SlotId) : RecordBody → Bool
  | .frame r => r.slot == i
  | _ => false

/-- The records of the feed's Index Queues. -/
def Engine.feedRecords (e : Engine) (f : FeedId) : List Record :=
  (e.takes.filter fun t => t.feed == f).flatMap (·.queue)

/-- R112: the record budget count of a feed. -/
def Engine.budget (e : Engine) (f : FeedId) : Nat := (e.feedRecords f).length

/-- R98, R110: a record joins a queue at its tail, or immediately ahead of END. -/
def joinQueue (q : List Record) (r : Record) : List Record :=
  if q.any (·.body.isEnd) then q.filter (fun k => !k.body.isEnd) ++ r :: q.filter (·.body.isEnd) else q ++ [r]

/-- Numbers a record that is produced now. -/
def Engine.numbered (e : Engine) (b : RecordBody) : Record := ⟨e.nextSeq, b⟩

def Engine.bumpSeq (e : Engine) : Engine := { e with nextSeq := e.nextSeq + 1 }

/-- Adds to a take's events-discarded counter. -/
def Take.discardEvents (n : Nat) (t : Take) : Take := { t with eventsDiscarded := t.eventsDiscarded + n }

/-- R112: an ordinary event record is produced for take `t`: it joins the queue while the feed's budget count is below
488, and is discarded and counted otherwise. -/
def Engine.queueEvent (t : Nat) (b : RecordBody) (e : Engine) : Engine :=
  match e.take? t with
  | none => e
  | some k =>
    if e.budget k.feed < eventPlaces then
      (e.updTake t fun k => { k with queue := joinQueue k.queue (e.numbered b) }).bumpSeq
    else (e.updTake t (Take.discardEvents 1)).bumpSeq

/-- R112: several ordinary event records, admitted one by one in order. -/
def Engine.queueEvents (t : Nat) (bs : List RecordBody) (e : Engine) : Engine :=
  bs.foldl (fun e b => e.queueEvent t b) e

/-- R108, R110: index EXTENT_REJECTED records placed behind the first `n` records of the queue in entry order, each
admitted as R112 says. -/
def Engine.queueBehind (n t : Nat) (bs : List RecordBody) (e : Engine) : Engine :=
  match e.take? t with
  | none => e
  | some k =>
    let room := eventPlaces - e.budget k.feed
    let taken := bs.take room
    let records := taken.zipIdx.map fun p => (⟨e.nextSeq + p.2, p.1⟩ : Record)
    { (e.updTake t fun k => (Take.discardEvents (bs.length - taken.length) { k with
      queue := k.queue.take n ++ records ++ k.queue.drop n })) with
      nextSeq := e.nextSeq + bs.length }

/-- The newest ordinary event record of the feed that is still in a queue: its number. -/
def Engine.newestEvent (e : Engine) (f : FeedId) : Option Nat :=
  (((e.feedRecords f).filter (·.body.ordinary)).map (·.seq)).max?

/-- The head record of a queue has number `n`. -/
def headIs (n : Nat) (q : List Record) : Bool := (q.head?.map (·.seq)) == some n

/-- The Index Writer has no record of take `t` in hand: its request, or its room check with the entry read the check
may have asked, is withdrawn (R115, R116, R149). -/
def Engine.withdrawWriter (t : Nat) (e : Engine) : Engine :=
  match e.writer.inHand with
  | some (k, _) =>
    if k = t then { (e.withdrawReads (ReadRequest.entryFor .index)) with writer := { e.writer with inHand := none } } else e
  | none => e

/-- R113: the newest ordinary event record of the feed is removed and counted in its take. A record in hand that is
removed is withdrawn. -/
def Engine.removeNewest (f : FeedId) (e : Engine) : Engine :=
  match e.newestEvent f with
  | none => e
  | some n =>
    match e.takes.find? (fun t => t.feed == f && t.queue.any (fun r => r.seq == n)) with
    | none => e
    | some t =>
      let e := if headIs n t.queue then e.withdrawWriter t.id else e
      e.updTake t.id fun k => Take.discardEvents 1 { k with queue := k.queue.filter fun r => r.seq != n }

/-- R113: before START or END joins, room is made among the 488 places of records other than FRAME placeholders. -/
def Engine.makeRoom (f : FeedId) (e : Engine) : Engine :=
  if eventPlaces ≤ ((e.feedRecords f).filter fun r => !r.body.isFrame).length then e.removeNewest f else e

/-- R79, R113: START joins at the head of the take's queue. -/
def Engine.queueStart (f : FeedId) (t : Nat) (r : StartRecord) (e : Engine) : Engine :=
  let e := e.makeRoom f
  (e.updTake t fun k => { k with queue := e.numbered (.start r) :: k.queue }).bumpSeq

/-- R111, R113: END joins at the tail; held index EXTENT_REJECTED records are counted and dropped (R69). -/
def Engine.queueEnd (f : FeedId) (t : Nat) (e : Engine) : Engine :=
  let e := e.makeRoom f
  (e.updTake t fun k => Take.discardEvents k.heldRejects.length
    { k with queue := k.queue ++ [e.numbered .endRecord], heldRejects := [] }).bumpSeq

/-- R112: a FRAME placeholder joins whatever the count. -/
def Engine.queueFrame (t : Nat) (r : FrameRecord) (e : Engine) : Engine :=
  (e.updTake t fun k => { k with queue := joinQueue k.queue (e.numbered (.frame r)) }).bumpSeq

/-- R99: the take position of the record at the head of `q`. -/
def recordPosition (t : Take) (b : RecordBody) (behind : List Record) : Nat :=
  match b with
  | .frame r => r.position
  | .start _ => 0
  | _ => (behind.findSome? fun k => match k.body with | .frame r => some r.position | _ => none).getD t.position

/-! ## Records of a slotted frame (R108, R109) -/

/-- What the Feed Receiver hands over with an admitted frame (R8). -/
structure Admission where
  capture  : Count
  placed   : Placed
  relock   : Option Count
  tally    : Tally
  metadata : List Item
  changed  : List Byte
deriving DecidableEq, Repr

/-- The CADENCE record of a frame: when the condition differs from what the take last recorded (R108, R109). -/
def cadenceRecords (recorded now : Bool) (measured : Nat) : List RecordBody :=
  if now = recorded then [] else if now then [.cadenceOff measured] else [.cadenceOk measured]

/-- The record's value of a tag, none when the tag is absent (the removed mark). -/
def itemValue (items : List Item) (tag : Byte) : Option (BitVec 48) :=
  (items.find? fun i => i.tag == tag).map (·.value)

/-- R108: the ordinary records of a take's first slotted frame. -/
def firstFrameRecords (recorded now : Bool) (measured : Nat) (a : Admission) : List RecordBody :=
  cadenceRecords recorded now measured ++ a.metadata.map fun i => .metadata i.tag (some i.value)

/-- R47: the record a classification hands over. -/
def continuityRecords (rate : RateClass) (last : Nat) (a : Admission) : Continuity → List RecordBody
  | .continuous => []
  | .gap missing => [.gap a.tally missing ((last + 1) % rate.dayCount)]
  | .discontinuity => [.discontinuity a.tally last a.placed.tc.day]

/-- R109: the ordinary records of a later slotted frame. -/
def laterFrameRecords (recorded now : Bool) (measured : Nat) (a : Admission) (continuity : List RecordBody) :
    List RecordBody :=
  (a.relock.map RecordBody.linkBack).toList ++ continuity ++ cadenceRecords recorded now measured ++
    a.changed.map fun tag => .metadata tag (itemValue a.metadata tag)

end Sys2Proof.Machine
end

