-- ==== Sys2Proof/Machine/Pool.lean ====
section
/-! DEFINITION. The Staging Pool (chapter 4) with the frames that wait for browse (section 7.2): grant, settlement,
release, abandonment, lag skips, and the withdrawal of the Mover and the Reducer from a frame. -/

namespace Sys2Proof.Machine

/-- R53: the number of FREE slots. -/
def Engine.freeCount (e : Engine) : Nat := ((List.finRange 96).filter fun i => e.slots[i].isNone).length

/-- R55: the FREE slot with the lowest number. -/
def Engine.lowestFree (e : Engine) : Option SlotId := (List.finRange 96).find? fun i => e.slots[i].isNone

/-- R55: the record of a slot when it is granted. -/
def Slot.granted (f : FeedId) (take position : Nat) : Slot where
  state := .filling
  feed := f
  take := take
  position := position
  padded := false
  concealed := false
  concealedCount := 0
  essence := .unwritten
  browse := .undecided
  placement := none

/-- R55: the slot a frame of feed `f` is granted, when the feed is below its ceiling and a slot is FREE. -/
def Engine.grantable (x : Front) (f : FeedId) (e : Engine) : Option SlotId :=
  if e.held[f].length < (x.settings f).ceiling then e.lowestFree else none

/-- R55: slot `i` leaves FREE for a frame and joins the tail of the feed's held list. -/
def Engine.grantSlot (f : FeedId) (take position : Nat) (i : SlotId) (e : Engine) : Engine :=
  { e with
    slots := upd e.slots i fun _ => some (Slot.granted f take position)
    held := upd e.held f fun h => h ++ [i] }

/-- R53, R54: slot `i` returns to FREE and leaves the held list it stands in. -/
def Engine.freeSlot (i : SlotId) (e : Engine) : Engine :=
  { e with
    slots := upd e.slots i fun _ => none
    held := e.held.map (List.filter fun j => j != i) }

/-- R63: a granted essence burst is still reading from slot `i`. -/
def Engine.burstReads (e : Engine) (i : SlotId) : Bool := (e.arbiter.busy.bind (·.slot)) == some i

/-- R52: a frame's essence is ISSUED and its browse outcome is decided; its settlement (R60). -/
def Slot.settlement (s : Slot) : Option Settlement :=
  match s.state, s.essence, s.browse, s.placement with
  | .ready, .issued, .decided outcome, some p =>
    some ⟨p.1, p.2, outcome, s.padded, s.concealed, s.concealedCount⟩
  | _, _, _, _ => none

/-- Fills the placeholder of the frame in slot `i` (R60, R114). -/
def RecordBody.settle (i : SlotId) (st : Option Settlement) : RecordBody → RecordBody
  | .frame r => if r.slot = i then .frame { r with settled := st } else .frame r
  | b => b

/-- Changes the bodies of a queue's records. -/
def mapQueue (g : RecordBody → RecordBody) (q : List Record) : List Record := q.map fun r => { r with body := g r.body }

/-- R60: the frame in slot `i` settles if both conditions hold. -/
def Engine.trySettle (i : SlotId) (e : Engine) : Engine :=
  match e.slots[i] with
  | none => e
  | some s =>
    match s.settlement with
    | none => e
    | some st =>
      (e.updSlot i fun s => { s with state := .settled }).updTake s.take fun t =>
        { t with queue := mapQueue (RecordBody.settle i (some st)) t.queue }

/-! ## Mover and Reducer leave a frame -/

/-- R141: the Mover's transfer or check of the frame in slot `i` ends; the check's read is withdrawn (R149). -/
def Engine.withdrawMover (i : SlotId) (e : Engine) : Engine :=
  match e.mover.state with
  | .idle => e
  | .checking j _ =>
    if j = i then
      { (e.withdrawReads (ReadRequest.entryFor .mover)) with mover := { e.mover with state := .idle } }
    else e
  | .moving j _ => if j = i then { e with mover := { e.mover with state := .idle } } else e

/-- R128: the room check of the frame in slot `i` is withdrawn (R149). -/
def Engine.withdrawCheck (i : SlotId) (e : Engine) : Engine :=
  match e.reducer.check with
  | some (j, _) =>
    if j = i then
      { (e.withdrawReads (ReadRequest.entryFor .browse)) with reducer := { e.reducer with check := none } }
    else e
  | none => e

/-- R137: the reduction of the frame in slot `i` is abandoned, with the Browse Writer's line in hand. -/
def Engine.abandonReduction (i : SlotId) (e : Engine) : Engine :=
  match e.reducer.frame with
  | some r => if r.slot = i then { e with reducer := { e.reducer with frame := none, line := none } } else e
  | none => e

/-- R18, R63: the frame in slot `i` is no feed's open frame any more. -/
def Engine.closeOpen (i : SlotId) (e : Engine) : Engine :=
  { e with opened := e.opened.map (Option.filter fun k => k.slot != i) }

/-- R63, R66: the frame in slot `i` is gone: its work stops, and the slot returns to FREE, or drains while a granted
essence burst reads from it (R64). A frame whose essence a move has set back to UNWRITTEN (R65) drains as well while its
old burst is being sent: R63's row for UNWRITTEN frees it, section 4.8 and R66 drain it (DESIGN CHOICE, log entry 27). -/
def Engine.abandonSlot (e : Engine) (i : SlotId) : Engine :=
  let e := (((e.withdrawMover i).withdrawCheck i).abandonReduction i).closeOpen i
  let e := { e with written := e.written.map (List.filter fun k => k.slot != i) }
  if e.burstReads i then e.updSlot i fun s => { s with state := .draining } else e.freeSlot i

/-- The slots whose records name take `t` and that are not DRAINING. -/
def Engine.slotsOf (e : Engine) (t : Nat) : List SlotId :=
  (List.finRange 96).filter fun i => e.slots[i].any fun s => s.take == t && s.state != .draining

/-! ## Waiting for browse (R124 to R126) -/

/-- R59, R124: the frame waits for browse. -/
def Engine.waits (e : Engine) (s : Slot) : Bool :=
  s.state == .ready && s.browse == .undecided && (e.take? s.take).any (·.browseOn)

/-- R124: the feed's waiting frames, oldest first. -/
def Engine.waiting (e : Engine) (f : FeedId) : List SlotId :=
  ((e.heldSlots f).filter fun p => e.waits p.2).map (·.1)

/-- The frame in slot `i` takes a browse outcome, and settles if its essence is ISSUED (R60). -/
def Engine.decideBrowse (i : SlotId) (o : BrowseOutcome) (e : Engine) : Engine :=
  (e.updSlot i fun s => { s with browse := .decided o }).trySettle i

/-- R125, R126: the oldest waiting frame of the feed is skipped. -/
def Engine.skipOldest (f : FeedId) (e : Engine) : Engine :=
  match (e.waiting f).head? with
  | none => e
  | some i => (e.withdrawCheck i).decideBrowse i .skippedLate

/-- R125, R126: waiting frames are skipped, oldest first, until at most `n` are left; `fuel` bounds their number. -/
def Engine.skipDownTo (n : Nat) (f : FeedId) : Nat → Engine → Engine
  | 0, e => e
  | fuel + 1, e => if n < (e.waiting f).length then Engine.skipDownTo n f fuel (e.skipOldest f) else e

/-- The lag limit of a feed's reduction context (R123). -/
def Front.lag (x : Front) (f : FeedId) : Nat := ((x.reduce[f]).map (·.lag)).getD 1

/-! ## A frame closes -/

/-- R57: the frame of feed `f` in slot `i` closes with lines: READY, with browse DISABLED or waiting. A frame that is
about to wait has the oldest waiting frame skipped when the feed's waiting count is at its limit (R125). A frame whose
outcome two moves have decided while it was FILLING keeps it and does not wait, as R59 has it, although R124 has every
frame of such a take join (DESIGN CHOICE, log entry 34). -/
def Engine.frameReady (x : Front) (f : FeedId) (i : SlotId) (padded : Bool) (concealed : Nat) (e : Engine) : Engine :=
  let e := { e with opened := upd e.opened f fun _ => none }
  let browseOn := ((e.slots[i].bind fun s => e.take? s.take).map (·.browseOn)).getD false
  let joins := browseOn && e.slots[i].any fun s => s.browse == .undecided
  let e := if joins then e.skipDownTo (x.lag f - 1) f 96 else e
  e.updSlot i fun s => { s with
    state := .ready
    padded := padded
    concealed := 0 < concealed
    concealedCount := concealed
    browse := if browseOn then s.browse else .decided .disabled }

/-- R17, R57: the frame of feed `f` in slot `i` closes empty: the slot is freed, the placeholder removed, the position
taken back. -/
def Engine.frameEmpty (f : FeedId) (i : SlotId) (e : Engine) : Engine :=
  let e := { e with opened := upd e.opened f fun _ => none }
  match e.slots[i] with
  | none => e
  | some s =>
    (e.updTake s.take fun t => { t with
      queue := t.queue.filter fun r => !r.body.inSlot i
      position := t.position - 1 }).freeSlot i

end Sys2Proof.Machine
end

