-- ==== Sys2Proof/Machine/Settings.lean ====
section
/-! DEFINITION. Settings of a feed (section 1.8, R31, R123, R126, R157): handing validated settings over, applying them,
going OFF, and changes of link state. -/

namespace Sys2Proof.Machine

/-- The blocks act on the engine, seeing the front. -/
def State.act (s : State) (g : Front → Engine → Engine) : State := { s with eng := g s.front s.eng }

/-- Changes the front alone. -/
def State.onFront (s : State) (g : Front → Front) : State := { s with front := g s.front }

/-- Changes the Feed Receiver of feed `f`. -/
def State.onReceiver (s : State) (f : FeedId) (g : Receiver → Receiver) : State :=
  s.onFront fun x => x.updReceiver f g

/-- The Feed Receiver of feed `f`. -/
def State.receiver (s : State) (f : FeedId) : Receiver := s.front.receivers[f]

/-- R7: the link state of feed `f` becomes `l`; a change asks the write of the Feed Slot's link state. -/
def State.setLink (f : FeedId) (l : Link) (s : State) : State :=
  if (s.receiver f).link = l then s
  else (s.onReceiver f fun r => { r with link := l }).act fun _ e => e.ask (.link f)

/-- R170: the condition causes of feed `f` follow their conditions. -/
def State.sync (f : FeedId) (s : State) : State := s.act fun x e => e.syncConditions x f

/-! ## The reduction context (R123) -/

/-- R123: the dither period of a dither period code. -/
def ditherPeriod : Nat → Nat
  | 0 => 4
  | 1 => 8
  | 2 => 16
  | 3 => 32
  | _ => 64

/-- R123: the reduction context that settings give. -/
def Settings.reduceContext (n : Settings) : ReduceContext := ⟨n.lag, n.dither, ditherPeriod n.ditherCode, n.ditherPhase⟩

/-! ## Applying settings (R21, R22) -/

/-- R21: framing, rate class, W or H of `n` differ from those held. -/
def formatChanged (old : Option Settings) (n : Settings) : Bool :=
  match old with
  | none => true
  | some o => o.framing != n.framing || o.rate != n.rate || o.w != n.w || o.h != n.h

/-- R31: feed `f`'s history is emptied, its measured period becomes none and is written as 0, its cadence condition is
cleared and its loss deadline made absent. -/
def State.clearTimer (f : FeedId) (s : State) : State :=
  (s.onFront fun x => x.updTimer f fun _ => .reset).act fun _ e => e.ask (.period f)

/-- R117: feed `f`'s committed count becomes 0 and is written. -/
def State.clearCommitted (f : FeedId) (s : State) : State :=
  s.act fun _ e => Engine.ask { e with board := upd e.board f fun b => { b with committed := 0 } } (.committed f)

/-- R21: what an enabling LOAD empties, clears and sets in the Feed Receiver. -/
def Receiver.enabling (r : Receiver) : Receiver :=
  { r with
    enabled := true
    candidate := false
    hasLocked := false
    relock := none
    metadata := []
    changed := []
    tally := .zero
    expected := none }

/-- R21: the link state at an enabling LOAD. -/
def Receiver.enabledLink (r : Receiver) : Link :=
  if r.enabled then (if r.link = .dark then .dark else .seeking)
  else if r.signal then .seeking else .dark

/-- R21: the new values serve from this moment; a lowered lag limit skips frames at once (R126). -/
def State.takeSettings (f : FeedId) (n : Settings) (s : State) : State :=
  ((s.onReceiver f fun r => { r with active := some n }).onFront fun x =>
    { x with reduce := upd x.reduce f fun _ => some n.reduceContext }).act fun x e => e.skipDownTo (x.lag f) f 96

/-- R21: settings with enable 1 become active. Of the Feed Slot writes an enabling LOAD asks, the spec gives no order; the
model asks the link state (R7), the measured period (R31), the committed count (R117) and the cause mirror (R173), in this
order: DESIGN CHOICE, log entry 26. -/
def State.applyEnabling (f : FeedId) (n : Settings) (s : State) : State :=
  let r := s.receiver f
  let t := s.takeSettings f n
  if !r.enabled || formatChanged r.active n then
    ((((t.onReceiver f Receiver.enabling).setLink f r.enabledLink).clearTimer f).clearCommitted f).sync f
  else t

/-- R22: what going OFF empties and clears in the Feed Receiver. The active settings and the Field Metadata Record are
kept; a Frame Header in progress is discarded with the lane's symbols. -/
def Receiver.disabling (r : Receiver) : Receiver :=
  { r with enabled := false, line := .empty, inHeader := false, candidate := false, hasLocked := false, relock := none }

/-- R22, R31: a disabling block is applied. -/
def State.applyDisabling (f : FeedId) (s : State) : State :=
  (((s.onReceiver f Receiver.disabling).setLink f .dark).clearTimer f).sync f

/-- R21: pending settings, if held, become active. -/
def State.applyPending (f : FeedId) (s : State) : State :=
  match (s.receiver f).waiting with
  | none => s
  | some b =>
    let s := s.onReceiver f fun r => { r with waiting := none }
    match b with
    | .enabling n => s.applyEnabling f n
    | .disabling => s.applyDisabling f

/-- R21: a validated block is handed over to the Feed Receiver: it replaces the pending settings, and becomes active at
once when the feed is OFF or its link is not LOCKED. -/
def State.handOver (f : FeedId) (b : Block) (s : State) : State :=
  let r := s.receiver f
  let s := s.onReceiver f fun r => { r with waiting := some b }
  if r.enabled ∧ r.link = .locked then s else s.applyPending f

/-- R157: the settings a block's format is compared with: the pending settings, or the active ones when none are
pending. A pending disabling block carries no format of its own, so the active fields stand (R155, log entry 14). -/
def Receiver.compared (r : Receiver) : Option Settings :=
  match r.waiting with
  | some (.enabling n) => some n
  | some .disabling | none => r.active

/-- R157: a block that passed R155 is refused because of the feed's takes. -/
def State.blockRefused (s : State) (f : FeedId) (b : Block) : Bool :=
  s.eng.places[f].any &&
    match b with
    | .disabling => true
    | .enabling n => formatChanged (s.receiver f).compared n

end Sys2Proof.Machine
end

