-- ==== Sys2Proof/Machine/Takes.lean ====
section
/-! DEFINITION. The Take Controller (chapter 5): a take begins, closes, is promoted, is cancelled, ends by ABORT or
FEED_RESET, is found exhausted with its rollover or discard, and leaves the Closing list. Membership of admitted frames
stands in Membership.lean. -/

namespace Sys2Proof.Machine

/-! ## Begin (R79) -/

/-- R79: the take geometry the feed's active settings give. -/
def Settings.geometry (s : Settings) : Geometry := ⟨s.w, s.h, s.rate, s.factor⟩

/-- R79: take `t`, which stands in Live, begins. `first` is the frame on which it begins; a take that begins by rollover
with no moved frame has none, and `capture` and `tc` are its START record's. START goes to the head of the queue and the
EXTENT_REJECTED records held from ARM behind it, ahead of records a rollover has moved there (R94, R108). -/
def Engine.beginTake (x : Front) (f : FeedId) (t : Nat) (first : Bool) (capture : Count) (tc : Timecode)
    (e : Engine) : Engine :=
  let geom := (x.settings f).geometry
  match e.take? t with
  | none => e
  | some k =>
    let e := e.updTake t fun k => { k with
      state := .recording
      beginFrame := if first then some (capture, tc) else none
      startCapture := some capture
      geom := some geom }
    let e := e.queueStart f t ⟨k.label, capture, tc, geom⟩
    let e := e.queueBehind 1 t (k.heldRejects.map (.extentRejected .index))
    let e := e.updTake t fun k => { k with heldRejects := [] }
    let e := e.askState t k.sheet .recording
    (e.raise x f .takeStarted).ask (.live f)

/-! ## Places -/

/-- R78, R81: the Staged take becomes Live, state ARMED; `mode` is its start mode from then on. -/
def Engine.promote (f : FeedId) (t : Take) (mode : StartMode) (e : Engine) : Engine :=
  let e := e.updPlaces f fun p => { p with live := some t.id, staged := none }
  let e := e.updTake t.id fun k => { k with state := .armed, startMode := mode }
  (e.askState t.id t.sheet .armed).ask (.live f)

/-- R81: CONTIGUOUS is taken as IMMEDIATE when a take becomes Live ARMED. -/
def StartMode.asLive : StartMode → StartMode
  | .contiguous => .immediate
  | m => m

/-- R70, R72: a take that never began ends, its sheet written CANCELLED. -/
def Engine.cancelTake (t : Take) (e : Engine) : Engine :=
  (e.updTake t.id fun k => { k with state := .cancelled }).ask (.sheetState t.id t.sheet .cancelled)

/-- R83, R149, R164: a take that never began is ended by ABORT or FEED_RESET: its rereads are no longer wanted. -/
def Engine.abortUnbegun (t : Take) (e : Engine) : Engine := (e.withdrawReads (ReadRequest.ofTake t.id)).cancelTake t

/-- R82, R83: the Staged take, if any, is written CANCELLED and ends. -/
def Engine.cancelStaged (f : FeedId) (e : Engine) : Engine :=
  match e.stagedTake f with
  | none => e
  | some t => (e.cancelTake t).updPlaces f fun p => { p with staged := none }

/-- R74: the Staged take, if any, is written SUPERSEDED and ends. -/
def Engine.supersedeStaged (f : FeedId) (e : Engine) : Engine :=
  match e.stagedTake f with
  | none => e
  | some t =>
    ((e.updTake t.id fun k => { k with state := .superseded }).ask (.sheetState t.id t.sheet .superseded)).updPlaces f
      fun p => { p with staged := none }

/-! ## Close (R86) -/

/-- R86: the Live take `t` of feed `f` closes. -/
def Engine.closeLive (f : FeedId) (t : Take) (reason : CloseReason) (capture : Count) (e : Engine) : Engine :=
  let e := e.updPlaces f fun p => { p with live := none, closing := p.closing ++ [t.id] }
  let e := e.updTake t.id fun k => { k with state := .closing, reason := some reason, endCapture := some capture }
  let e := e.queueEnd f t.id
  (e.askState t.id t.sheet .closing).ask (.live f)

/-- R87: the stop of the Live take is deferred. -/
def Engine.deferStop (f : FeedId) (t : Take) (reason : CloseReason) (e : Engine) : Engine :=
  (e.updPlaces f fun p => { p with deferredStop := some reason }).updTake t.id fun k =>
    { k with deferredStops := k.deferredStops + 1 }

/-- R87: the Closing list of feed `f` is full. -/
def Engine.closingFull (e : Engine) (f : FeedId) : Bool := closingLimit ≤ e.places[f].closing.length

/-- R78: what becomes of the Staged take when Live closed at once for `reason` (any row but ROOM_EXHAUSTED, and the rows
where the Staged take begins on the frame), no frame having been given to it. -/
def Engine.promoteAfterClose (f : FeedId) (reason : CloseReason) (e : Engine) : Engine :=
  match e.stagedTake f with
  | none => e
  | some t =>
    match reason with
    | .halted | .aborted | .feedReset => e.cancelStaged f
    | _ => e.promote f t t.startMode.asLive

/-- R78: the row of a stop that takes effect after deferral. -/
def Engine.promoteAfterDeferral (f : FeedId) (reason : CloseReason) (e : Engine) : Engine :=
  match e.stagedTake f with
  | none => e
  | some t => e.promote f t (if reason = .split then .immediate else t.startMode.asLive)

/-! ## Ending by ABORT and FEED_RESET (R83, R85, R89) -/

/-- R118: the next index record of take `t` lies in its consumed index space. -/
def Take.recordFits (t : Take) : Bool := 32 * (t.indexWritten + 1) ≤ t.index.bytes

/-- R83: the take moves to the ending set with `reason`: its slots are abandoned, its queue loses every record not yet
written, and END is queued. A Closing take whose END is written and whose CLOSED is not issued yet ends like the others
(R83, R89), with a further END as long as its space holds one: DESIGN CHOICE, log entry 35. The position counter, which END
carries (R99), is not lowered by the frames the take loses: DESIGN CHOICE, log entry 44. -/
def Engine.endTake (x : Front) (f : FeedId) (reason : CloseReason) (e : Engine) (t : Take) : Engine :=
  let e := (e.slotsOf t.id).foldl Engine.abandonSlot e
  let e := (e.withdrawReads (ReadRequest.ofTake t.id)).withdrawWriter t.id
  let e := e.updPlaces f fun p => { p with
    live := p.live.filter fun k => k != t.id
    closing := p.closing.filter fun k => k != t.id
    ending := p.ending ++ [t.id] }
  let e := e.updTake t.id fun k => { k with
    state := .ending
    reason := some reason
    endCapture := some x.refCount
    essenceStarved := false
    indexStarved := false
    refeed := none
    framesDiscarded := k.framesDiscarded + (k.queue.filter fun r => r.body.isFrame).length
    eventsDiscarded := k.eventsDiscarded + (k.queue.filter fun r => r.body.ordinary).length
    queue := [] }
  if t.recordFits then e.queueEnd f t.id else e.askState t.id t.sheet .aborted

/-- R83, R85: the feed's takes end at once with `reason`. The Live take's CANCELLED is asked ahead of the Staged take's,
and the mirror of a STARVED that leaves (R170) behind the sheets' states and the Live field: DESIGN CHOICE, log entry
38. -/
def Engine.endTakes (x : Front) (f : FeedId) (reason : CloseReason) (e : Engine) : Engine :=
  let live := e.liveTake f
  let ended := (live.filter fun t => t.state == .recording).toList ++ e.places[f].closing.filterMap e.take?
  let e := ended.foldl (Engine.endTake x f reason) e
  let e := match live with
    | some t => if t.state = TakeState.armed then e.abortUnbegun t else e
    | none => e
  let e := e.cancelStaged f
  let e := e.updPlaces f fun p => { p with live := none, deferredStop := none }
  let e := if live.isSome then e.ask (.live f) else e
  e.syncConditions x f

/-! ## Exhaustion (R94, R95) -/

/-- R94: the number of records before the split point of a queue. -/
def Engine.splitIndex (e : Engine) (kind : Exhaustion) (q : List Record) : Nat :=
  match kind with
  | .index => 0
  | .essence => q.findIdx fun r => match r.body with
    | .frame k => (e.slots[k.slot].map (·.essence)) == some .unwritten
    | _ => false

/-- The records from the split point on, END left out. -/
def Engine.tailRecords (e : Engine) (kind : Exhaustion) (t : Take) : List Record :=
  (t.queue.drop (e.splitIndex kind t.queue)).filter fun r => !r.body.isEnd

/-- The records before the split point, with END behind them. -/
def Engine.keptRecords (e : Engine) (kind : Exhaustion) (t : Take) : List Record :=
  (t.queue.take (e.splitIndex kind t.queue)).filter (fun r => !r.body.isEnd) ++ t.queue.filter (·.body.isEnd)

/-- The slots of the FRAME placeholders among records. -/
def frameSlots (q : List Record) : List SlotId :=
  q.filterMap fun r => match r.body with
    | .frame k => some k.slot
    | _ => none

/-- R115, R116: what the split of take `t`'s queue does to its record in hand. A room check that waits is withdrawn. A
record whose write is asked is withdrawn when it goes with the records from the split point on, and stays in hand when it
stands before it: DESIGN CHOICE, log entry 32. -/
def Engine.withdrawAtSplit (kind : Exhaustion) (t : Take) (e : Engine) : Engine :=
  match e.writer.inHand with
  | some (_, .asking) => if e.splitIndex kind t.queue = 0 then e.withdrawWriter t.id else e
  | _ => e.withdrawWriter t.id

/-- R95: the Closing take numbered `n` discards its unwritten records from the split point on, and its close reason
becomes ROOM_EXHAUSTED; a change of the reason asks the progress block's write (R96). Index EXTENT_REJECTED records held
since END was queued are neither queued nor counted: DESIGN CHOICE, log entry 29. The position counter, which END carries
(R99), is not lowered by the discarded frames: DESIGN CHOICE, log entry 44. -/
def Engine.discardTail (kind : Exhaustion) (n : Nat) (e : Engine) : Engine :=
  match e.take? n with
  | none => e
  | some t =>
    let tail := e.tailRecords kind t
    let kept := e.keptRecords kind t
    let e := e.withdrawAtSplit kind t
    let e := e.updTake n fun k => { k with
      queue := kept
      reason := some .roomExhausted
      framesDiscarded := k.framesDiscarded + (tail.filter fun r => r.body.isFrame).length
      eventsDiscarded := k.eventsDiscarded + (tail.filter fun r => r.body.ordinary).length }
    let e := (frameSlots tail).foldl Engine.abandonSlot e
    if t.reason = some .roomExhausted then e else e.ask (.progress n t.sheet)

/-- R65, R136: the slot record of a frame that moves to take `t` at position `position`; `browseOn` is the receiving
take's browse enable. A frame in REDUCING is SKIPPED_MOVED under a take with browse disabled too, as R65, R136 and R137
have it, although R68 has every frame of such a take DISABLED (DEDUCED, log entry 20). -/
def Slot.moved (t position : Nat) (browseOn : Bool) (s : Slot) : Slot :=
  { s with
    take := t
    position := position
    essence := .unwritten
    placement := none
    state := if s.state = .settled then .ready else s.state
    browse := match s.browse with
      | .undecided => if browseOn then .undecided else .decided .disabled
      | .reducing => .decided .skippedMoved
      | .decided _ => .decided (if browseOn then .skippedMoved else .disabled) }

/-- R65, R136, R137, R141: the frame in slot `i` moves: its transfer, its room checks and its reduction end, and its slot
record changes. -/
def Engine.moveFrame (t : Nat) (browseOn : Bool) (e : Engine) (p : SlotId × Nat) : Engine :=
  (((e.withdrawMover p.1).withdrawCheck p.1).abandonReduction p.1).updSlot p.1 (Slot.moved t p.2 browseOn)

/-- R94, R119: moved records: FRAME placeholders renumbered from `k` and unsettled, event records as they are. -/
def renumber : Nat → List Record → List Record
  | _, [] => []
  | k, r :: rs =>
    match r.body with
    | .frame b => { r with body := .frame { b with position := k, settled := none } } :: renumber (k + 1) rs
    | _ => r :: renumber k rs

/-- R68: AFTER_FRAMES' count N; 0 is taken as 1. -/
def Take.frameLimit (t : Take) : Nat := max 1 (t.stopParam.setWidth 32).toNat

/-- R94: the capture and the label of the first moved frame, on which the receiving take begins. -/
def firstFrame (q : List Record) : Option (Count × Timecode) :=
  q.findSome? fun r => match r.body with
    | .frame b => some (b.capture, b.tc)
    | _ => none

/-- R94, R119: the records from the split point on leave the closing take numbered `n` and become the queue of take `g`,
with what the receiving take takes over from the closing take. They never leave the feed's budget count. The closing take's
position counter stays as it stands, so that its END carries the positions of moved frames too, as R80 counts them, although
R99 calls it the number granted and kept: DESIGN CHOICE, log entry 44. -/
def Engine.moveRecords (kind : Exhaustion) (t g : Take) (e : Engine) : Engine :=
  let tail := e.tailRecords kind t
  let kept := e.keptRecords kind t
  let moved := (firstFrame tail).isSome
  let e := (e.withdrawAtSplit kind t).updTake t.id fun k => { k with queue := kept }
  e.updTake g.id fun k => { k with
    queue := k.queue ++ renumber 0 tail
    position := (frameSlots tail).length
    lastDay := t.lastDay
    firstFrame := moved
    cadenceRecorded := if moved then t.cadenceRecorded else k.cadenceRecorded }

/-- R94: the closing take numbered `n` gives its unwritten records to the Staged CONTIGUOUS take `g`, which becomes Live
and begins with them. The records keep their places in the budget while START and the held EXTENT_REJECTED records are
admitted (R113); a moved record that START removes is counted in the receiving take (log entry 30). -/
def Engine.rollover (x : Front) (f : FeedId) (kind : Exhaustion) (n : Nat) (g : Take) (e : Engine) : Engine :=
  match e.take? n with
  | none => e
  | some t =>
    let tail := e.tailRecords kind t
    let frames := frameSlots tail
    let expected := (x.settings f).rate.timecode (x.receivers[f].expected.getD 0)
    let start := (firstFrame tail).getD (x.refCount, expected)
    let e := e.moveRecords kind t g
    let e := e.updPlaces f fun p => { p with live := some g.id, staged := none }
    let e := e.beginTake x f g.id (firstFrame tail).isSome start.1 start.2
    let e := frames.zipIdx.foldl (Engine.moveFrame g.id g.browseOn) e
    if g.stopMode = .afterFrames ∧ g.frameLimit ≤ frames.length then
      (if e.closingFull f then e.deferStop f g .frameCount
       else (e.closeLive f g .frameCount x.refCount).promoteAfterClose f .frameCount)
    else e

/-- R94, R95: the close ROOM_EXHAUSTED of the Live take `t` takes effect. END is queued at the close, and room made for it
(R113), before a discard frees places: DESIGN CHOICE, log entry 40. -/
def Engine.closeExhausted (x : Front) (f : FeedId) (kind : Exhaustion) (t : Take) (e : Engine) : Engine :=
  let staged := e.stagedTake f
  let e := e.closeLive f t .roomExhausted x.refCount
  match staged with
  | none => e.discardTail kind t.id
  | some g =>
    if g.startMode = .contiguous then e.rollover x f kind t.id g
    else (e.discardTail kind t.id).promote f g g.startMode

/-- R94: take `n` is found without room of `kind`. Its starvation ends at the finding (R170), before what follows it. -/
def Engine.findExhausted (x : Front) (kind : Exhaustion) (n : Nat) (e : Engine) : Engine :=
  match e.take? n with
  | none => e
  | some t =>
    let f := t.feed
    let closing := t.state == .closing
    if t.exhausted.isSome then (if closing then e.discardTail kind n else e)
    else
      let e := e.updTake n fun k => { k with
        exhausted := some kind
        essenceStarved := false
        indexStarved := false
        refeed := none }
      let e := (e.withdrawReads (ReadRequest.refeedOf n)).syncConditions x f
      if closing then e.discardTail kind n
      else if e.places[f].deferredStop.isSome then e
      else if e.closingFull f then e.deferStop f t .roomExhausted
      else e.closeExhausted x f kind t

/-! ## Leaving the Closing list (R87, R88, R89) -/

/-- R87: a deferred stop of feed `f` takes effect. -/
def Engine.effectDeferred (x : Front) (f : FeedId) (e : Engine) : Engine :=
  match e.places[f].deferredStop, e.liveTake f with
  | some reason, some t =>
    let e := e.updPlaces f fun p => { p with deferredStop := none }
    if reason = .roomExhausted then e.closeExhausted x f (t.exhausted.getD .essence) t
    else
      let e := e.closeLive f t reason x.refCount
      let e := match t.exhausted with
        | some kind => e.discardTail kind t.id
        | none => e
      e.promoteAfterDeferral f reason
  | _, _ => e

/-- R72: the take context `n` ends: nothing of the part names its sheet any more. -/
def Engine.dropTake (n : Nat) (e : Engine) : Engine :=
  { (e.withdrawReads (ReadRequest.ofTake n)) with takes := e.takes.filter fun t => t.id != n }

/-- R88: a Closing take's final state is written: it leaves the Closing list, and a deferred stop takes effect. TAKE_CLOSED
joins the cause set before the take's starvation, if it lasts, leaves it (R170): DESIGN CHOICE, log entry 42. -/
def Engine.leaveClosing (x : Front) (t : Take) (e : Engine) : Engine :=
  let e := (e.dropTake t.id).updPlaces t.feed fun p => { p with closing := p.closing.filter fun k => k != t.id }
  let e := (e.raise x t.feed .takeClosed).syncConditions x t.feed
  (e.effectDeferred x t.feed).syncConditions x t.feed

/-- R89: an ending take's final state is written. -/
def Engine.leaveEnding (x : Front) (t : Take) (e : Engine) : Engine :=
  ((e.dropTake t.id).updPlaces t.feed fun p => { p with ending := p.ending.filter fun k => k != t.id }).raise x t.feed
    .takeClosed

/-- R72, R88, R89: the write of a sheet state of take `n` is granted; a final state ends the context. A CLOSED asked
before the take entered the ending set is issued as asked (R151) and ends nothing (log entry 35). -/
def Engine.stateWritten (x : Front) (n : Nat) (st : SheetState) (e : Engine) : Engine :=
  match e.take? n with
  | none => e
  | some t =>
    match st with
    | .closed => if t.state = .ending then e else e.leaveClosing x t
    | .aborted => e.leaveEnding x t
    | .cancelled | .superseded => e.dropTake n
    | .armed | .staged | .recording | .closing => e

end Sys2Proof.Machine
end

