-- ==== Sys2Proof/Machine/Attention.lean ====
section
/-! DEFINITION. The Attention Unit (chapter 9): answers, the decoding of an ATTENTION write, the choice of the request to
serve, what each served request does, and the part states. Requests that wait for a read go on in HostLink.lean. -/

namespace Sys2Proof.Machine

/-- Changes the Attention Unit. -/
def State.onAttention (s : State) (g : Attention → Attention) : State :=
  s.onFront fun x => { x with attention := g x.attention }

/-- Changes the PART_STATUS flags. -/
def State.onFlags (s : State) (g : StatusFlags → StatusFlags) : State := s.onFront fun x => { x with flags := g x.flags }

/-! ## Answers (R153, R154) -/

/-- R154: an answer for feed `f`: the attentions-taken count rises by one, the answer record is asked, and ANSWER is
raised. -/
def State.answer (f : FeedId) (req : FeedRequest) (res : Result) (field : Nat) (s : State) : State :=
  let a : Answer := ⟨s.front.attention.answers[f].taken + 1, some req, some res, field⟩
  (s.onAttention fun u => { u with answers := upd u.answers f fun _ => a }).act fun x e =>
    (e.ask (.answer f a)).raise x f .answer

/-- R153, R172: a global answer: the global count rises by one, the record is asked, and the global mark is set. -/
def State.globalAnswer (req : GlobalRequest) (res : Result) (s : State) : State :=
  let a : GlobalAnswer := ⟨s.front.attention.answer.taken + 1, some req, some res⟩
  (s.onAttention fun u => { u with answer := a }).act fun x e => (e.ask (.globalAnswer a)).raiseGlobal x

/-- R160: the answer of feed `f`'s pending request is asked, which ends the request. -/
def State.conclude (f : FeedId) (req : FeedRequest) (res : Result) (field : Nat) (s : State) : State :=
  (s.onAttention fun u => { u with pending := upd u.pending f fun _ => none }).answer f req res field

/-- R162: no request is in service any more. -/
def State.endService (s : State) : State := s.onAttention fun u => { u with service := none }

/-- R162: a request goes into service and asks a read. -/
def State.serveReading (v : Service) (r : ReadRequest) (s : State) : State :=
  (s.onAttention fun u => { u with service := some v }).act fun _ e => e.askRead r

/-! ## ATTENTION writes (R159 to R161) -/

/-- R159: a dropped ATTENTION write. -/
def State.dropAttention (s : State) : State := s.onFlags fun g => { g with attentionIgnored := true }

/-- R160: a feed request for one named feed. -/
def State.takeFeed (req : FeedRequest) (s : State) (f : FeedId) : State :=
  match s.front.attention.pending[f] with
  | none => s.onAttention fun u => { u with pending := upd u.pending f fun _ => some ⟨req, false⟩ }
  | some _ => s.answer f req .refusedPending 0

/-- The feeds a mask names, lowest first, in which order they are decided and their refusals asked: DESIGN CHOICE, log
entry 39. -/
def maskFeeds (mask : BitVec 16) : List FeedId := (List.finRange 16).filter fun f => mask.getLsb f

/-- R159, R160: an ATTENTION write with a feed request. -/
def State.attentionFeed (req : FeedRequest) (mask : BitVec 16) (s : State) : State :=
  if s.front.attention.part = .running ∧ mask ≠ 0 then (maskFeeds mask).foldl (State.takeFeed req) s
  else s.dropAttention

/-- R166: a START taken in STANDBY checks PAGE_BASE, and enters STARTING with the page header's read. -/
def State.startFromStandby (s : State) : State :=
  if s.front.pageBase = 0 ∨ s.front.pageBase.toNat % 8192 ≠ 0 then s.onFlags fun g => { g with pageFault := true }
  else (s.onAttention fun u => { u with part := .starting }).serveReading .start .pageHeader

/-- R161: a global request taken in RUNNING becomes the waiting one; one that waits already is answered SUPERSEDED. -/
def State.takeGlobal (req : GlobalRequest) (s : State) : State :=
  let s := match s.front.attention.global with
    | none => s
    | some old => s.globalAnswer old .superseded
  s.onAttention fun u => { u with global := some req }

/-- R159, R161: an ATTENTION write with a global request. -/
def State.attentionGlobal (req : GlobalRequest) (s : State) : State :=
  match s.front.attention.part with
  | .running => s.takeGlobal req
  | .starting => s.dropAttention
  | .standby => if req = .start then s.startFromStandby else s.dropAttention

/-- R159: an ATTENTION write is decoded when it arrives. -/
def State.attentionWrite (word : BitVec 32) (s : State) : State :=
  match parseRequest (attentionCode word) with
  | some (.feed req) => s.attentionFeed req (attentionMask word)
  | some (.global req) => s.attentionGlobal req
  | none => s.dropAttention

/-! ## Serving take requests (R81 to R84) -/

/-- R81, R82, R87: a RECORDING Live take `t` is told to stop with `reason`: nothing more when a stop is deferred
already, a deferred stop when the Closing list is full, a close with the row of R78 otherwise. -/
def Engine.stopLive (x : Front) (f : FeedId) (t : Take) (reason : CloseReason) (e : Engine) : Engine :=
  if e.places[f].deferredStop.isSome then e
  else if e.closingFull f then e.deferStop f t reason
  else (e.closeLive f t reason x.refCount).promoteAfterClose f reason

/-- R81, R82: the ARMED Live take `t` is written CANCELLED and leaves Live. -/
def Engine.cancelLive (f : FeedId) (t : Take) (e : Engine) : Engine :=
  ((e.cancelTake t).updPlaces f fun p => { p with live := none }).ask (.live f)

/-- R81: STOP against a Live take. -/
def Engine.stopTake (x : Front) (f : FeedId) (t : Take) (e : Engine) : Engine :=
  if t.state = .armed then
    match e.stagedTake f with
    | none => e.cancelLive f t
    | some g => (e.cancelLive f t).promote f g g.startMode.asLive
  else e.stopLive x f t .stopped

/-- R82: HALT against a Live take. -/
def Engine.haltTake (x : Front) (f : FeedId) (t : Take) (e : Engine) : Engine :=
  Engine.cancelStaged f (if t.state = .armed then e.cancelLive f t else e.stopLive x f t .halted)

/-- The Live take of feed `f` while the feed is enabled: the requests refuse an OFF feed (R163). -/
def State.enabledLive (s : State) (f : FeedId) : Option Take :=
  if (s.receiver f).enabled then s.eng.liveTake f else none

/-- R81: STOP is served. -/
def State.serveStop (f : FeedId) (s : State) : State :=
  match s.enabledLive f with
  | none => s.conclude f .stop .refusedState 0
  | some t => (s.act fun x e => e.stopTake x f t).conclude f .stop .done 0

/-- R82: HALT is served. -/
def State.serveHalt (f : FeedId) (s : State) : State :=
  match s.enabledLive f with
  | none => s.conclude f .halt .refusedState 0
  | some t => (s.act fun x e => e.haltTake x f t).conclude f .halt .done 0

/-- R83: ABORT is served. -/
def State.serveAbort (f : FeedId) (s : State) : State :=
  if (s.receiver f).enabled ∧ (s.eng.places[f].live.isSome ∨ s.eng.places[f].closing ≠ []) then
    (s.act fun x e => e.endTakes x f .aborted).conclude f .abort .done 0
  else s.conclude f .abort .refusedState 0

/-- R84: REFILL is served: the rereads are asked, and the answer follows when they end. -/
def State.serveRefill (f : FeedId) (s : State) : State :=
  if (s.receiver f).enabled then
    match s.eng.rereadTakes f with
    | [] => s.conclude f .refill .done 0
    | takes => s.act fun _ e => takes.foldl (fun e t => e.askReread true t) e
  else s.conclude f .refill .refusedState 0

/-- A reread that a REFILL of feed `f` waits for (R84). -/
def ReadRequest.refillOf (f : FeedId) : ReadRequest → Bool
  | .posted g _ _ refill => refill && g == f
  | _ => false

/-- R84: a reread asked by feed `f`'s REFILL has not completed yet. -/
def Port.refillWaits (p : Port) (f : FeedId) : Bool :=
  p.reads.any (ReadRequest.refillOf f) || p.outstanding.any fun o => o.request.refillOf f

/-- R84: a REFILL in hand whose rereads have all completed. -/
def State.refillDone (s : State) : Option FeedId :=
  (List.finRange 16).find? fun f =>
    s.front.attention.pending[f] == some ⟨.refill, true⟩ && !s.eng.port.refillWaits f

/-! ## FEED_RESET (R164) -/

/-- R164: FEED_RESET is served. The conditions of the feed end and its set is emptied in the same step, before ANSWER
joins it, so that one mirror write follows the answer (R176). -/
def State.serveFeedReset (f : FeedId) (s : State) : State :=
  let r := s.receiver f
  let linkChanged := r.link != .dark
  let s := s.onReceiver f fun r => { Receiver.reset with signal := r.signal }
  let s := s.onFront fun x => { x.updTimer f fun _ => .reset with reduce := upd x.reduce f fun _ => none }
  let s := s.act fun x e =>
    Engine.endTakes x f .feedReset
      { e with notices := { e.notices with causes := upd e.notices.causes f fun _ => 0 } }
  let s := s.act fun _ e => (if linkChanged then e.ask (.link f) else e).ask (.period f)
  let s := s.act fun _ e => { e with board := upd e.board f fun b => { b with committed := 0 } }
  s.conclude f .feedReset .done 0

/-! ## START and STANDBY (R166, R167) -/

/-- R166: a START fails: the part returns to STANDBY with PAGE_FAULT set. -/
def State.failStart (s : State) : State :=
  (s.onAttention fun u => { u with part := .standby, service := none }).onFlags fun g => { g with pageFault := true }

/-- R166: the writes asked for one Feed Slot on entering RUNNING. The rule gives no order of the groups of its status; the
model asks link, Live, committed, period: DESIGN CHOICE, log entry 38. -/
def Engine.askSlot (x : Front) (e : Engine) (f : FeedId) : Engine :=
  [WriteRequest.answer f x.attention.answers[f], .link f, .live f, .committed f, .period f, .mirror f].foldl Engine.ask e

/-- R174: the owed message is asked after the START writes and the global answer, unless the global notice of START
has asked one. -/
def Engine.askOwed (wasOn : Bool) (e : Engine) : Engine :=
  let e' := { e with notices := { e.notices with messageOwed := false } }
  if e.notices.messageOwed && wasOn then e'.ask .message else e'

/-- R166: the part enters RUNNING. -/
def State.enterRunning (s : State) : State :=
  let s := (s.onAttention fun u => { u with part := .running, service := none }).onFlags fun g => { g with pageFault := false }
  let s := s.act fun x e => (List.finRange 16).foldl (Engine.askSlot x) e
  let wasOn := s.eng.notices.maskedOn s.front.noticeMask
  (s.globalAnswer .start .done).act fun _ e => e.askOwed wasOn

/-- R36, R167: a pending time load is abandoned and answered SUPERSEDED. -/
def State.abandonLoad (s : State) : State :=
  match s.front.pendingLoad with
  | none => s
  | some _ => (s.onFront fun x => { x with pendingLoad := none }).globalAnswer .timeLoad .superseded

/-- R167: a waiting feed request is answered REFUSED_STATE and ends. So is a REFILL still in hand, of which R167 says there
is none: DESIGN CHOICE, log entry 48. -/
def State.refuseWaiting (s : State) (f : FeedId) : State :=
  match s.front.attention.pending[f] with
  | none => s
  | some p => s.conclude f p.request .refusedState 0

/-- R97, R151, R167: an ending context ends without further writes, and the writes to its sheet leave the write list. -/
def Engine.dropEnding (e : Engine) (n : Nat) : Engine :=
  let e := e.dropTake n
  { e with port := { e.port with writes := e.port.writes.filter fun w => !w.ofTake n } }

/-- R67, R97, R120, R138, R151: the engine when STANDBY is taken. A slot still DRAINING is left to drain. The read list
holds no read for any take any more. The Index Writer's service pointer becomes none, for which chapter 6 gives no value:
DESIGN CHOICE, log entry 33. Takes of a feed that a pending disabling block has turned OFF, of which R97 says there are
none, are kept: DESIGN CHOICE, log entry 41. Every ending context ends, as R167 has it, also one whose END is written and
whose ABORTED waits, of which R97 and R120 do not speak: DESIGN CHOICE, log entry 45. -/
def Engine.toStandby (e : Engine) : Engine :=
  let ending := (e.places.toList.map (·.ending)).flatten
  let e := (ending.foldl Engine.dropEnding e).withdrawReads ReadRequest.forTake
  { e with
    takes := e.takes.map fun t => { t with refeed := none }
    places := e.places.map fun p => { p with ending := [] }
    mover := ⟨.idle, none⟩
    reducer := ⟨none, none, none, none⟩
    writer := ⟨none, none⟩
    arbiter := { e.arbiter with lastGrant := .none } }

/-- R174, R176: the part enters STANDBY; no message is owed. -/
def State.enterStandby (s : State) : State :=
  (s.onAttention fun u => { u with part := .standby }).act fun _ e =>
    { e with notices := { e.notices with messageOwed := false } }

/-- R167: STANDBY is taken. Waiting feed requests are answered in the order of the feeds' numbers: DESIGN CHOICE, log
entry 39. -/
def State.takeStandby (s : State) : State :=
  let s := (List.finRange 16).foldl State.refuseWaiting s.abandonLoad
  ((s.act fun _ e => e.toStandby).globalAnswer .standby .done).enterStandby

/-- Some feed is enabled (R167). -/
def Front.anyEnabled (x : Front) : Bool := (List.finRange 16).any fun f => x.receivers[f].enabled

/-! ## Service (R162, R163) -/

/-- R162: the waiting global request is served. -/
def State.serveGlobal (req : GlobalRequest) (s : State) : State :=
  let s := s.onAttention fun u => { u with global := none }
  match req with
  | .start => s.globalAnswer .start .refusedState
  | .standby => if s.front.anyEnabled then s.globalAnswer .standby .refusedState else s.takeStandby
  | .timeLoad => s.serveReading .timeLoad .timeValue

/-- R163: a feed request is served. -/
def State.serveFeed (f : FeedId) (req : FeedRequest) (s : State) : State :=
  match req with
  | .load => s.serveReading (.load f) (.settings f)
  | .loadCommon => s.serveReading (.loadCommon f) (.common f)
  | .arm =>
    if (s.receiver f).enabled then s.serveReading (.armAddress f) (.stagedAddress f)
    else s.conclude f .arm .refusedState 0
  | .stop => s.serveStop f
  | .halt => s.serveHalt f
  | .abort => s.serveAbort f
  | .refill => s.serveRefill f
  | .feedReset => s.serveFeedReset f

/-- R162: the feed whose waiting request is served next. -/
def Attention.nextFeed (u : Attention) : Option (FeedId × FeedRequest) :=
  (feedsAfter u.lastServed).findSome? fun f =>
    match u.pending[f] with
    | some p => if p.inHand then none else some (f, p.request)
    | none => none

/-- R162: a feed's request comes in hand, and the feed becomes the last-served feed. -/
def Attention.takeInHand (f : FeedId) (req : FeedRequest) (u : Attention) : Attention :=
  { u with pending := upd u.pending f fun _ => some ⟨req, true⟩, lastServed := some f }

/-- R162: the Attention Unit's choice when it has no request in service: the waiting global request, or the next feed's
waiting request. None when there is nothing to serve. -/
def State.serveStep (s : State) : Option State :=
  let u := s.front.attention
  if u.service.isSome then none
  else match u.global with
    | some req => some (s.serveGlobal req)
    | none => u.nextFeed.map fun p => (s.onAttention (Attention.takeInHand p.1 p.2)).serveFeed p.1 p.2

/-- R84: a REFILL whose rereads have ended is answered DONE. -/
def State.refillStep (s : State) : Option State := s.refillDone.map fun f => s.conclude f .refill .done 0

end Sys2Proof.Machine
end

