-- ==== Sys2Proof/Machine/Arm.lean ====
section
/-! DEFINITION. ARM once its reads come in (R73, R74): the checks of the sheet address, the sheet header and the index
entries, the new take context, and its placement by the feed's contexts. -/

namespace Sys2Proof.Machine

/-- R73: the take context of a taken ARM: `n` is the number of the good index entry consumed, `rejected` the invalid
entries passed. -/
def Take.fresh (id : Nat) (f : FeedId) (sheet : HostAddr) (h : SheetHeader) (n : Nat) (entry : HostAddr × Nat)
    (rejected : List Nat) : Take where
  id := id
  feed := f
  sheet := sheet
  state := .armed
  label := h.label
  browseOn := h.browse
  startMode := h.startMode
  startParam := h.startParam
  stopMode := h.stopMode
  stopParam := h.stopParam
  position := 0
  lastDay := none
  beginFrame := none
  geom := none
  essence := ⟨0, h.essencePosted, []⟩
  browse := ⟨0, h.browsePosted, []⟩
  index := ⟨n + 1, h.indexPosted, [⟨n, entry.1, entry.2⟩]⟩
  heldRejects := rejected
  essenceStarved := false
  indexStarved := false
  exhausted := none
  refeed := none
  reason := none
  startCapture := none
  endCapture := none
  cadenceRecorded := false
  firstFrame := false
  queue := []
  committed := 0
  browseWritten := 0
  browseSkipped := 0
  indexWritten := 0
  firstTc := none
  lastTc := none
  eventsDiscarded := 0
  framesDiscarded := 0
  deferredStops := 0

/-- A new take context joins as the newest (R115). -/
def Engine.addTake (t : Take) (e : Engine) : Engine := { e with takes := e.takes ++ [t], nextId := e.nextId + 1 }

/-- R74: the new take `t` becomes Live, state ARMED; CONTIGUOUS is taken as IMMEDIATE. -/
def Engine.placeLive (f : FeedId) (t : Take) (e : Engine) : Engine :=
  let e := (e.addTake { t with state := .armed, startMode := t.startMode.asLive }).updPlaces f fun p =>
    { p with live := some t.id }
  (e.askState t.id t.sheet .armed).ask (.live f)

/-- R74: the new take `t` becomes Staged; an existing Staged take is SUPERSEDED. -/
def Engine.placeStaged (f : FeedId) (t : Take) (e : Engine) : Engine :=
  let e := e.supersedeStaged f
  let e := (e.addTake { t with state := .staged }).updPlaces f fun p => { p with staged := some t.id }
  e.askState t.id t.sheet .staged

/-- R74: a taken ARM places the new take `t` by the feed's contexts. The sheet states of a split are asked in the order
SUPERSEDED, CLOSING, ARMED: DESIGN CHOICE, log entry 38. -/
def Engine.placeTake (x : Front) (f : FeedId) (t : Take) (e : Engine) : Engine :=
  match e.liveTake f with
  | none => e.placeLive f t
  | some live =>
    if live.state = .recording ∧ t.startMode = .immediate then
      if e.places[f].deferredStop.isSome then e.placeStaged f t
      else if e.closingFull f then (e.placeStaged f t).deferStop f live .split
      else ((e.supersedeStaged f).closeLive f live .split x.refCount).placeLive f t
    else e.placeStaged f t

/-- R73: an ARM fails with an answer and changes no take state. -/
def State.armFails (f : FeedId) (res : Result) (s : State) : State := s.endService.conclude f .arm res 0

/-- R73, step 4: some take context of some feed holds the address. -/
def Engine.holdsSheet (e : Engine) (sheet : HostAddr) : Bool := e.takes.any fun t => t.sheet == sheet

/-- R73, steps 3 and 4: the staged sheet address has been read. -/
def State.armAddressRead (f : FeedId) (sheet : HostAddr) (s : State) : State :=
  if sheet = 0 ∨ sheet.toNat % 2048 ≠ 0 then s.armFails f .badSheet
  else if s.eng.holdsSheet sheet then s.armFails f .sheetInUse
  else s.serveReading (.armHeader f sheet) (.sheetHeader f sheet)

/-- R73, step 7: index entry `n` is asked. -/
def State.armAskEntry (f : FeedId) (sheet : HostAddr) (h : SheetHeader) (n : Nat) (rejected : List Nat) (s : State) :
    State :=
  s.serveReading (.armEntries f sheet h n rejected) (.armEntry f sheet n)

/-- R73, step 6: the sheet header has been read. -/
def State.armHeaderRead (f : FeedId) (sheet : HostAddr) (bytes : List Byte) (s : State) : State :=
  match parseSheet bytes with
  | none => s.armFails f .badSheet
  | some h => if h.indexPosted = 0 then s.armFails f .badSheet else s.armAskEntry f sheet h 0 []

/-- R73, R74: every check has passed: the take is created and placed, and DONE is asked behind the sheet's state. That the
feed is not OFF was checked when the ARM was served, as R73 puts it first; a feed that has gone OFF while the ARM's reads
were outstanding does not refuse it any more: DESIGN CHOICE, log entry 47. -/
def State.armTaken (f : FeedId) (sheet : HostAddr) (h : SheetHeader) (n : Nat) (entry : HostAddr × Nat)
    (rejected : List Nat) (s : State) : State :=
  let s := s.act fun x e => e.placeTake x f (Take.fresh e.nextId f sheet h n entry rejected)
  s.endService.conclude f .arm .done 0

/-- R73, step 7: index entry `n` has been read. -/
def State.armEntryRead (f : FeedId) (sheet : HostAddr) (h : SheetHeader) (n : Nat) (rejected : List Nat)
    (entry : HostAddr × Nat) (s : State) : State :=
  if entryGood entry then s.armTaken f sheet h n entry rejected
  else if n + 1 < h.indexPosted then s.armAskEntry f sheet h (n + 1) (rejected ++ [n])
  else s.armFails f .badSheet

end Sys2Proof.Machine
end

