-- ==== Sys2Proof/Machine/Memory.lean ====
section
/-! DEFINITION. Card DRAM as a list of cells in one canonical form: addresses strictly rising, no cell that holds what an
unlisted address reads as. The spec gives no contents after power-on; an unlisted byte reads as 0 (log entry 2). -/

namespace Sys2Proof.Machine

/-- What an unlisted byte of card DRAM reads as. DESIGN CHOICE, unsafe: the spec gives no power-on contents (log entry 2). -/
def Dram.blank : Byte := 0

/-- The canonical form. -/
abbrev Dram.wf (m : Dram) : Prop :=
  m.Pairwise (fun a b => a.1 < b.1) ∧ ∀ c ∈ m, c.2 ≠ Dram.blank

/-- One byte of card DRAM. -/
def Dram.read (m : Dram) (a : Nat) : Byte :=
  ((m.find? (fun c => c.1 == a)).map (·.2)).getD Dram.blank

/-- `n` bytes of card DRAM from address `a` on. -/
def Dram.readRange (m : Dram) (a n : Nat) : List Byte :=
  (List.range n).map fun i => m.read (a + i)

/-- The cells that bytes laid out from address `a` on need: one for each byte that is not blank. -/
def Dram.cellsOf (a : Nat) : List Byte → Dram
  | [] => []
  | b :: bs => if b = Dram.blank then Dram.cellsOf (a + 1) bs else (a, b) :: Dram.cellsOf (a + 1) bs

/-- Card DRAM with `bytes` written from address `a` on. -/
def Dram.writeRange (m : Dram) (a : Nat) (bytes : List Byte) : Dram :=
  m.filter (fun c => c.1 < a) ++ Dram.cellsOf a bytes ++ m.filter (fun c => a + bytes.length ≤ c.1)

end Sys2Proof.Machine
end

