-- ==== Sys2Proof/Machine/Rooms.lean ====
section
/-! DEFINITION. Room checks: consuming extent entries (R69), the essence check of the Mover and of a fed take (R90, R91),
the browse check (R92, R128) and the index check (R93, R115), with the choices of the Mover, the Reducer and the Index
Writer that start them. Each block's step answers none when the block has nothing to do. -/

namespace Sys2Proof.Machine

/-- What a room check finds with the entries read so far (R90, R92, R93). -/
inductive RoomCheck where
  | fits
  | read (entry : Nat)
  | short
  | exhausted
deriving DecidableEq, Repr

/-- R90, R92: a check that a space reaches `need` bytes. -/
def checkRoom (size : Nat) (sp : Space) (need : Nat) : RoomCheck :=
  if need ≤ sp.bytes then .fits
  else if sp.cursor < min sp.posted size then .read sp.cursor
  else if sp.cursor < size then .short
  else .exhausted

/-! ## Consuming an entry (R69) -/

/-- R69: entry `n` of list `l` of take `t`, read as `entry`, is consumed. -/
def Engine.consume (t : Nat) (l : ListName) (n : Nat) (entry : HostAddr × Nat) (e : Engine) : Engine :=
  match e.take? t with
  | none => e
  | some k =>
    let sp := k.space l
    if entryGood entry then
      let e := e.updTake t fun k => k.withSpace l
        { sp with cursor := n + 1, extents := sp.extents ++ [⟨n, entry.1, entry.2⟩] }
      if l = .index then
        let e := e.updTake t fun k => { k with heldRejects := [] }
        e.queueBehind 0 t (k.heldRejects.map (.extentRejected .index))
      else e
    else
      let e := e.updTake t fun k => k.withSpace l { sp with cursor := n + 1 }
      if l = .index then e.updTake t fun k => { k with heldRejects := k.heldRejects ++ [n] }
      else e.queueEvent t (.extentRejected l n)

/-- Asks the read of entry `n` for a check of kind `use` of take `t`. -/
def Engine.askEntry (use : EntryUse) (t : Take) (n : Nat) (e : Engine) : Engine :=
  e.askRead (.entry use t.id t.sheet n)

/-! ## The Essence Mover (R58, R90, R139) -/

/-- R58: the frame is a candidate for the Mover. -/
def Engine.candidate (e : Engine) (s : Slot) : Bool :=
  s.state == .ready && s.essence == .unwritten &&
    (e.take? s.take).any fun t => !t.essenceStarved && t.exhausted.isNone

/-- R58: the oldest candidate frame of a feed. -/
def Engine.oldestCandidate (e : Engine) (f : FeedId) : Option SlotId :=
  ((e.heldSlots f).find? fun p => e.candidate p.2).map (·.1)

/-- R139: the Mover's choice: the first feed after the last-served one that has a candidate, and its oldest. -/
def Engine.moverChoice (e : Engine) : Option (FeedId × SlotId) :=
  (feedsAfter e.mover.lastServed).findSome? fun f => (e.oldestCandidate f).map fun i => (f, i)

/-- R90: the check of a frame of take `t` falls short: the take becomes essence-starved, if it was not already. Of a take
found exhausted already, Live stays as it stands, and one in the Closing list discards (R94). -/
def Engine.starveEssence (x : Front) (t : Take) (e : Engine) : Engine :=
  if t.exhausted.isSome then e.findExhausted x .essence t.id
  else if t.essenceStarved then e
  else
    ((e.updTake t.id fun k => { k with essenceStarved := true }).queueEvent t.id (.starved x.refCount)).syncConditions x
      t.feed

def Engine.setMover (st : MoverState) (e : Engine) : Engine := { e with mover := { e.mover with state := st } }

/-- R140: the Mover takes the frame in slot `i` as its frame transfer. -/
def Engine.startMoving (t : Take) (k : Nat) (i : SlotId) (e : Engine) : Engine :=
  (e.updSlot i fun s => { s with essence := .moving, placement := t.essence.place (k * t.mfb) }).setMover (.moving i 0)

/-- R90, R139: the Mover's check of the frame in slot `i`; `failed` says that the entry it asked could not be read,
which is then taken as not yet posted (R69). -/
def Engine.moverCheck (x : Front) (i : SlotId) (failed : Bool) (e : Engine) : Engine :=
  match e.slots[i].bind fun s => (e.take? s.take).map fun t => (s, t) with
  | none => e.setMover .idle
  | some (s, t) =>
    match checkRoom 32 t.essence ((s.position + 1) * t.mfb) with
    | .fits => e.startMoving t s.position i
    | .read n => if failed then (e.setMover .idle).starveEssence x t else (e.askEntry .mover t n).setMover (.checking i .waiting)
    | .short => (e.setMover .idle).starveEssence x t
    | .exhausted => (e.setMover .idle).findExhausted x .essence t.id

/-- One act of the Mover: a choice when it is IDLE, or the evaluation of its check. -/
def Engine.moverStep (x : Front) (e : Engine) : Option Engine :=
  match e.mover.state with
  | .idle => e.moverChoice.map fun p => { e with mover := ⟨.checking p.2 .evaluate, some p.1⟩ }
  | .checking i .evaluate => some (e.moverCheck x i false)
  | _ => none

/-! ## Feeding an essence-starved take (R91) -/

/-- R91: the take's oldest frame whose essence is UNWRITTEN: its position. -/
def Engine.oldestUnwritten (e : Engine) (t : Take) : Option Nat :=
  ((e.heldSlots t.feed).find? fun p => p.2.take == t.id && p.2.essence == .unwritten && p.2.state != .draining).map
    fun p => p.2.position

def Engine.setRefeed (t : Nat) (st : Option CheckStage) (e : Engine) : Engine :=
  e.updTake t fun k => { k with refeed := st }

/-- R91: the essence starvation of take `t` ends. -/
def Engine.feed (x : Front) (t : Take) (e : Engine) : Engine :=
  (((e.updTake t.id fun k => { k with essenceStarved := false, refeed := none }).queueEvent t.id (.fed x.refCount))).syncConditions
    x t.feed

/-- R91: the check of essence-starved take `t` after a reread. -/
def Engine.refeedCheck (x : Front) (t : Take) (failed : Bool) (e : Engine) : Engine :=
  match e.oldestUnwritten t with
  | none => e.setRefeed t.id none
  | some k =>
    match checkRoom 32 t.essence ((k + 1) * t.mfb) with
    | .fits => e.feed x t
    | .read n => if failed then e.setRefeed t.id none else (e.askEntry .refeed t n).setRefeed t.id (some .waiting)
    | .short => e.setRefeed t.id none
    | .exhausted => (e.setRefeed t.id none).findExhausted x .essence t.id

/-- One act of the fed takes' checks: the oldest take context whose check is to be evaluated. -/
def Engine.refeedStep (x : Front) (e : Engine) : Option Engine :=
  (e.takes.find? fun t => t.refeed == some .evaluate).map fun t => e.refeedCheck x t false

/-! ## The Browse Reducer (R121, R127, R128, R132) -/

/-- R121: the browse width of a geometry. -/
def Geometry.wb (g : Geometry) : Nat := 2 * (g.w / (2 * g.factor))

/-- R121: the browse height of a geometry. -/
def Geometry.hb (g : Geometry) : Nat := g.h / g.factor

/-- R121: the browse frame bytes of a geometry. -/
def Geometry.bfb (g : Geometry) : Nat := g.wb * g.hb * 2

/-- A take's browse frame bytes. -/
def Take.bfb (t : Take) : Nat := (t.geom.map Geometry.bfb).getD 0

/-- R127: the Reducer's choice: the first feed after the last-served one with a waiting frame, and its oldest. -/
def Engine.reducerChoice (e : Engine) : Option (FeedId × SlotId) :=
  (feedsAfter e.reducer.lastServed).findSome? fun f => (e.waiting f).head?.map fun i => (f, i)

def Engine.setCheck (c : Option (SlotId × CheckStage)) (e : Engine) : Engine :=
  { e with reducer := { e.reducer with check := c } }

/-- R132: s for position `k`. -/
def ditherIndex (period phase k : Nat) : Nat := (k + phase * (period / 4)) % period

/-- R128: the reduction of the frame in slot `i` starts. -/
def Engine.startReduction (x : Front) (t : Take) (s : Slot) (i : SlotId) (e : Engine) : Engine :=
  let g := t.geom.getD ⟨0, 0, .fps25, 1⟩
  let c := (x.reduce[s.feed]).getD ⟨1, false, 4, 0⟩
  let d := ditherIndex c.period c.phase s.position
  let place := (t.browse.place (s.position * g.bfb)).getD (0, 0)
  let e := e.updSlot i fun s => { s with browse := .reducing }
  { e with reducer := { e.reducer with
    check := none
    frame := some {
      slot := i
      feed := s.feed
      take := t.id
      position := s.position
      factor := g.factor
      wb := g.wb
      hb := g.hb
      bfb := g.bfb
      extent := place.1
      offset := place.2
      dither := c.dither
      px := d % 4
      py := d / 4 % 4
      nextLine := 0
      sums := none } } }

/-- R92, R128: the room check of the chosen frame in slot `i`. -/
def Engine.reducerCheck (x : Front) (i : SlotId) (failed : Bool) (e : Engine) : Engine :=
  match e.slots[i].bind fun s => (e.take? s.take).map fun t => (s, t) with
  | none => e.setCheck none
  | some (s, t) =>
    match checkRoom 32 t.browse ((s.position + 1) * t.bfb) with
    | .fits => e.startReduction x t s i
    | .read n =>
      if failed then (e.setCheck none).decideBrowse i .skippedNoRoom
      else (e.askEntry .browse t n).setCheck (some (i, .waiting))
    | .short => (e.setCheck none).decideBrowse i .skippedNoRoom
    | .exhausted => (e.setCheck none).decideBrowse i .skippedNoRoom

/-- One act of the Reducer: a choice when it is free, or the evaluation of its room check. -/
def Engine.reducerStep (x : Front) (e : Engine) : Option Engine :=
  match e.reducer.check with
  | some (i, .evaluate) => some (e.reducerCheck x i false)
  | some (_, .waiting) => none
  | none =>
    if e.reducer.frame.isSome then none
    else e.reducerChoice.map fun p =>
      { e with reducer := { e.reducer with check := some (p.2, .evaluate), lastServed := some p.1 } }

/-! ## The Index Writer (R93, R115) -/

/-- R93: the index room of a take for a record other than END: record number r must leave the last record free. -/
def Take.indexCheck (t : Take) : RoomCheck := checkRoom 8 t.index (32 * (t.indexWritten + 2))

/-- The Mover is in the midst of checking a frame of take `t` (R141). -/
def Engine.moverChecks (e : Engine) (t : Nat) : Bool :=
  match e.mover.state with
  | .checking i _ => e.slots[i].any fun s => s.take == t
  | _ => false

/-- R94: an exhaustion of take `t` found now would move its unwritten records, at once or after a deferral: it is the
feed's RECORDING Live take with no stop deferred, and a Staged CONTIGUOUS take stands behind it. -/
def Engine.wouldMove (e : Engine) (t : Take) : Bool :=
  t.state == .recording && e.places[t.feed].deferredStop.isNone && (e.stagedTake t.feed).any (·.startMode == .contiguous)

/-- What the Index Writer finds at a take context when it comes to it in service order (R115). -/
inductive WriterFinding where
  | pass
  | write
  | read (entry : Nat)
  | starve
  | exhaust
deriving DecidableEq, Repr

/-- R93, R94: what the index check of take `t` finds when it falls short with entries left to come: the take becomes
index-starved. Of a take found exhausted already, Live stays as it stands, to be checked again at a later choice (log entry
25), and one in the Closing list discards. -/
def Take.indexShort (t : Take) : WriterFinding :=
  if t.exhausted.isNone then .starve else if t.state == .closing then .exhaust else .pass

/-- R93, R115: the finding at take `t`. A take whose head is not settled, or that is index-starved, is passed over
without a check; one that is index-starved also when its head has become END, which R93 and R118 have always written, since
R115 has no index-starved take writable (DESIGN CHOICE, log entry 43). An exhaustion that would move the take's records
waits while the Mover is checking a frame of the take, for the Mover's own outcome; one that discards them does not, and
withdraws that check (R141, log entry 21). -/
def Engine.writerFinding (t : Take) (failed : Bool) (e : Engine) : WriterFinding :=
  match t.queue with
  | [] => .pass
  | r :: _ =>
    if !r.body.isSettled || t.indexStarved then .pass
    else if r.body.isEnd then .write
    else match t.indexCheck with
      | .fits => .write
      | .read n => if failed then t.indexShort else .read n
      | .short => t.indexShort
      | .exhausted =>
        if (t.exhausted.isSome && t.state != .closing) || (e.moverChecks t.id && e.wouldMove t) then .pass else .exhaust

/-- R115: the take contexts in service order after the one served last. -/
def Engine.serviceOrder (e : Engine) : List Take :=
  match e.writer.served with
  | none => e.takes
  | some n => e.takes.filter (fun t => n < t.id) ++ e.takes.filter (fun t => t.id ≤ n)

/-- R93: take `t` becomes index-starved. -/
def Engine.starveIndex (x : Front) (t : Take) (e : Engine) : Engine :=
  (e.updTake t.id fun k => { k with indexStarved := true }).syncConditions x t.feed

def Engine.setInHand (h : Option (Nat × WriterStage)) (e : Engine) : Engine :=
  { e with writer := { e.writer with inHand := h } }

/-- R115: the Index Writer acts on its finding at take `t`. -/
def Engine.writerAct (x : Front) (t : Take) (e : Engine) : WriterFinding → Engine
  | .pass => e.setInHand none
  | .write => { e with writer := ⟨some (t.id, .asking), some t.id⟩ }
  | .read n => { (e.askEntry .index t n) with writer := ⟨some (t.id, .check .waiting), some t.id⟩ }
  | .starve => (e.setInHand none).starveIndex x t
  | .exhaust => (e.setInHand none).findExhausted x .index t.id

/-- The index check of the record in hand of take `n`, evaluated again (R93, R115). -/
def Engine.writerCheck (x : Front) (n : Nat) (failed : Bool) (e : Engine) : Engine :=
  match e.take? n with
  | none => e.setInHand none
  | some t => e.writerAct x t (e.writerFinding t failed)

/-- One act of the Index Writer: a choice when it has no record in hand, or the evaluation of its check. -/
def Engine.writerStep (x : Front) (e : Engine) : Option Engine :=
  match e.writer.inHand with
  | some (n, .check .evaluate) => some (e.writerCheck x n false)
  | some _ => none
  | none =>
    (e.serviceOrder.find? fun t => e.writerFinding t false != .pass).map fun t =>
      e.writerAct x t (e.writerFinding t false)

end Sys2Proof.Machine
end

