-- ==== Sys2Proof/Machine/Link.lean ====
section
/-! DEFINITION. The host link (chapter 8) with what is done at a grant: the reduction arithmetic and the browse lines
(sections 7.4, 7.5), the bursts of the four requesters, the Link Arbiter's order, and the effects of a granted write, read,
record and picture burst. A write counts as done once it is granted (R144). -/

namespace Sys2Proof.Machine

/-! ## Reduction arithmetic (R129 to R133) -/

/-- Section 11.7: the sample in the sixteen-bit container at DRAM address `a`. -/
def sampleAt (m : Dram) (a : Nat) : Nat := (m.read a).toNat + 256 * (m.read (a + 1)).toNat

/-- R122: Y[x, y] of the frame at DRAM address `base` with `w` pixels a line. -/
def lumaAt (m : Dram) (base w x y : Nat) : Nat :=
  sampleAt m (base + 4 * w * y + 8 * (x / 2) + (if x % 2 = 0 then 2 else 6))

/-- R122: Cb[c, y]. -/
def cbAt (m : Dram) (base w c y : Nat) : Nat := sampleAt m (base + 4 * w * y + 8 * c)

/-- R122: Cr[c, y]. -/
def crAt (m : Dram) (base w c y : Nat) : Nat := sampleAt m (base + 4 * w * y + 8 * c + 4)

/-- The sum of the samples of the `n` by `n` block at column `c` and line `y`. -/
def blockSum (n : Nat) (sample : Nat → Nat → Nat) (c y : Nat) : Nat :=
  ((List.range n).map fun r => ((List.range n).map fun i => sample (c + i) (y + r)).sum).sum

/-- R129, R130: the divisor. -/
def divisor (factor : Nat) : Nat := 4 * (factor * factor)

/-- R131: the ordered matrix M. -/
def ditherMatrix : List (List Nat) := [[0, 8, 2, 10], [12, 4, 14, 6], [3, 11, 1, 9], [15, 7, 13, 5]]

/-- R131: the entry of M in a row and a column, each taken modulo 4. -/
def ditherEntry (row column : Nat) : Nat := (ditherMatrix.getD (row % 4) []).getD (column % 4) 0

/-- R131: the bias of output pixel `u` on line `v` of a frame. -/
def Reduction.bias (r : Reduction) (u v : Nat) : Nat :=
  if r.dither then (2 * ditherEntry (v + r.py) (u + r.px) + 1) * divisor r.factor / 32
  else 2 * (r.factor * r.factor)

/-- R129, R130, R133: the browse sample of a sum under a bias. -/
def browseSample (factor sum bias : Nat) : Nat := min 255 ((sum + bias) / divisor factor)

/-- R134: the row accumulators of the band of the next output line. -/
def Reduction.bandSums (r : Reduction) (m : Dram) (w : Nat) : RowSums :=
  let base := r.slot.val * slotBytes
  let y := r.nextLine * r.factor
  { luma := (List.range r.wb).map fun u => blockSum r.factor (lumaAt m base w) (u * r.factor) y
    cb := (List.range (r.wb / 2)).map fun j => blockSum r.factor (cbAt m base w) (j * r.factor) y
    cr := (List.range (r.wb / 2)).map fun j => blockSum r.factor (crAt m base w) (j * r.factor) y }

/-- R134: the browse line of the row accumulators: for each pair, Cbb, Yb left, Crb, Yb right. -/
def Reduction.packBand (r : Reduction) (s : RowSums) : List Byte :=
  (List.range (r.wb / 2)).flatMap fun j =>
    [ BitVec.ofNat 8 (browseSample r.factor (s.cb.getD j 0) (r.bias (2 * j) r.nextLine)),
      BitVec.ofNat 8 (browseSample r.factor (s.luma.getD (2 * j) 0) (r.bias (2 * j) r.nextLine)),
      BitVec.ofNat 8 (browseSample r.factor (s.cr.getD j 0) (r.bias (2 * j) r.nextLine)),
      BitVec.ofNat 8 (browseSample r.factor (s.luma.getD (2 * j + 1) 0) (r.bias (2 * j + 1) r.nextLine)) ]

/-- R134, R135: a completed band is handed to the Browse Writer when the Writer has no line in hand; the accumulators
are emptied and the band of the next line starts. -/
def Engine.handLine (e : Engine) : Engine :=
  match e.reducer.frame, e.reducer.line with
  | some r, none =>
    match r.sums with
    | some s =>
      { e with reducer := { e.reducer with
        line := some ⟨r.nextLine, r.position * r.bfb + r.nextLine * (2 * r.wb), r.packBand s⟩
        frame := some { r with sums := none, nextLine := r.nextLine + 1 } } }
    | none => e
  | _, _ => e

/-- R134: the band of the next output line of the frame in reduction is in. With no frame in reduction, with all its
lines formed, or with a band that still waits for the Writer, the reducer reads nothing and no band completes. -/
def Engine.bandComplete (x : Front) (e : Engine) : Engine :=
  match e.reducer.frame with
  | none => e
  | some r =>
    if r.sums.isSome || r.hb ≤ r.nextLine then e
    else
      let w := (((e.take? r.take).bind (·.geom)).map (·.w)).getD 0
      let r := { r with sums := some (r.bandSums x.dram w) }
      Engine.handLine { e with reducer := { e.reducer with frame := some r } }

/-! ## Bursts (R116, R135, R140) -/

/-- The length of a burst that starts at byte `p` of a space and ends by byte `stop`: the run within one 4,096-byte
block of the space. -/
def burstLength (p stop : Nat) : Nat := min (4096 - p % 4096) (stop - p)

/-- The link becomes busy with a burst. -/
def Engine.setBusy (source : Requester) (payload : Payload) (slot : Option SlotId) (e : Engine) : Engine :=
  { e with arbiter := { e.arbiter with busy := some ⟨source, payload, slot⟩ } }

/-! ## Release of slots (R61, R117) -/

/-- R61, R117: a written frame covered by a publication is released, and STRIDE is raised when it is due. -/
def Engine.release (x : Front) (f : FeedId) (e : Engine) (k : WrittenFrame) : Engine :=
  let e := e.freeSlot k.slot
  let stride := (x.settings f).stride
  if stride ≠ 0 ∧ k.count.toNat % stride = 0 then e.raise x f .stride else e

/-- Both writes of a publication that covers the frame have been issued. -/
def WrittenFrame.covered (k : WrittenFrame) : Bool := k.progressIssued && k.committedIssued

/-- R117: the feed's covered frames are released in the order in which their records were written. -/
def Engine.releaseCovered (x : Front) (f : FeedId) (e : Engine) : Engine :=
  (e.written[f].filter WrittenFrame.covered).foldl (Engine.release x f)
    { e with written := upd e.written f (List.filter fun k => !k.covered) }

/-- Marks the written frames of a feed, and releases those that are covered. -/
def Engine.markWritten (x : Front) (f : FeedId) (g : WrittenFrame → WrittenFrame) (e : Engine) : Engine :=
  Engine.releaseCovered x f { e with written := upd e.written f (List.map g) }

/-! ## Grants to the Record Port -/

/-- What the issue of a write brings with it: a publication's writes release slots (R117), and a sheet's final state
ends its take context (R72, R88, R89). -/
def Engine.writeIssued (x : Front) (e : Engine) : WriteRequest → Engine
  | .progress t _ =>
    match e.take? t with
    | none => e
    | some k => e.markWritten x k.feed fun w => if w.take = t then { w with progressIssued := true } else w
  | .committed f => e.markWritten x f fun w => { w with committedIssued := true }
  | .sheetState t _ st => e.stateWritten x t st
  | _ => e

/-- R145: the head of the write list is granted; its bytes are formed now. -/
def Engine.grantWrite (x : Front) (w : WriteRequest) (rest : List WriteRequest) (e : Engine) : Engine :=
  Engine.writeIssued x
    (Engine.setBusy .recordPort (writePayload x e w) none { e with port := { e.port with writes := rest } }) w

/-- R146: the head of the read list is granted and becomes the outstanding read, under the next number. -/
def Engine.grantRead (x : Front) (r : ReadRequest) (rest : List ReadRequest) (e : Engine) : Engine :=
  let span := r.span x.pageBase
  Engine.setBusy .recordPort (.read span.1 span.2) none
    { e with port := { e.port with
      reads := rest
      outstanding := some ⟨e.port.issued, r, readLimit, true⟩
      issued := e.port.issued + 1 } }

/-! ## Grants to the Index Writer (R116) -/

/-- R116: what the grant of a FRAME record does. -/
def Engine.frameWritten (t : Take) (r : FrameRecord) (e : Engine) : Engine :=
  let outcome := r.settled.map (·.outcome)
  let skipped := outcome == some .skippedLate || outcome == some .skippedNoRoom || outcome == some .skippedMoved
  let e := e.updTake t.id fun k => { k with
    committed := k.committed + 1
    browseWritten := k.browseWritten + (if outcome == some .written then 1 else 0)
    browseSkipped := k.browseSkipped + (if skipped then 1 else 0)
    lastTc := some r.tc
    firstTc := if r.position = 0 then some r.tc else k.firstTc }
  let count := e.board[t.feed].committed + 1
  let e := { e with
    board := upd e.board t.feed fun _ => ⟨count, r.tc⟩
    written := upd e.written t.feed fun l => l ++ [(⟨r.slot, t.id, count, false, false⟩ : WrittenFrame)] }
  (e.ask (.progress t.id t.sheet)).ask (.committed t.feed)

/-- R116: what the grant of END does: the final progress and state are asked (R88, R89). -/
def Engine.endWritten (t : Take) (e : Engine) : Engine :=
  e.askState t.id t.sheet (if t.state = .ending then .aborted else .closed)

/-- The effects of a record's grant beyond its leaving the queue. -/
def Engine.recordWritten (t : Take) (e : Engine) : RecordBody → Engine
  | .frame r => e.frameWritten t r
  | .endRecord => e.endWritten t
  | _ => e

/-- R116: the record in hand of take `n` is granted. -/
def Engine.grantRecord (n : Nat) (e : Engine) : Engine :=
  match e.take? n with
  | none => e.setInHand none
  | some t =>
    match t.queue with
    | [] => e.setInHand none
    | r :: rest =>
      let payload := Payload.write (t.index.addr (32 * t.indexWritten)) (recordBytes t (recordPosition t r.body rest) r.body)
      let e := (e.setBusy .indexWriter payload none).setInHand none
      (e.updTake n fun k => { k with queue := rest, indexWritten := k.indexWritten + 1 }).recordWritten t r.body

/-! ## Grants to the picture writers (R135, R140, R143) -/

/-- R140: the Mover's next burst of the frame in slot `i`, from frame byte `next` on, is granted. -/
def Engine.grantEssence (x : Front) (i : SlotId) (next : Nat) (e : Engine) : Engine :=
  match e.slots[i].bind fun s => (e.take? s.take).map fun t => (s, t) with
  | none => e.setMover .idle
  | some (s, t) =>
    let first := s.position * t.mfb + next
    let len := burstLength first ((s.position + 1) * t.mfb)
    let bytes := x.dram.readRange (i.val * slotBytes + next) len
    let e := e.setBusy .mover (.write (t.essence.addr first) bytes) (some i)
    let e := { e with arbiter := { e.arbiter with lastGrant := .essence } }
    if t.mfb ≤ next + len then
      ((e.updSlot i fun s => { s with essence := .issued }).setMover .idle).trySettle i
    else e.setMover (.moving i (next + len))

/-- R135: the frame in reduction is WRITTEN: its last burst has been granted. -/
def Engine.browseWritten (r : Reduction) (e : Engine) : Engine :=
  Engine.decideBrowse r.slot .written { e with reducer := { e.reducer with frame := none } }

/-- R135: the Browse Writer's next burst of the line in hand of the frame in reduction is granted. -/
def Engine.grantBrowse (r : Reduction) (l : LineInHand) (e : Engine) : Engine :=
  let len := burstLength l.offset (l.offset + l.rest.length)
  let space := ((e.take? r.take).map (·.browse)).getD ⟨0, 0, []⟩
  let e := e.setBusy .browseWriter (.write (space.addr l.offset) (l.rest.take len)) none
  let e := { e with arbiter := { e.arbiter with lastGrant := .browse } }
  if l.rest.length ≤ len then
    let e := { e with reducer := { e.reducer with line := none } }
    if r.hb ≤ l.line + 1 then e.browseWritten r else e.handLine
  else { e with reducer := { e.reducer with line := some { l with offset := l.offset + len, rest := l.rest.drop len } } }

/-- R143: the Essence Mover goes ahead of the Browse Writer when both wait. -/
def LastGrant.essenceFirst : LastGrant → Bool
  | .essence => false
  | .none | .browse => true

/-- R143: a grant to one of the two picture writers, if either waits. -/
def Engine.grantPicture (x : Front) (e : Engine) : Option Engine :=
  match e.mover.state, e.reducer.frame, e.reducer.line with
  | .moving i next, some r, some l =>
    some (if e.arbiter.lastGrant.essenceFirst then e.grantEssence x i next else e.grantBrowse r l)
  | .moving i next, _, _ => some (e.grantEssence x i next)
  | _, some r, some l => some (e.grantBrowse r l)
  | _, _, _ => none

/-! ## The Link Arbiter -/

/-- R145, R146: the Record Port's burst, if it waits: the head of the write list, or the head of the read list when
the write list is empty and no read is outstanding. -/
def Engine.grantPort (x : Front) (e : Engine) : Option Engine :=
  match e.port.writes, e.port.reads, e.port.outstanding with
  | w :: rest, _, _ => some (e.grantWrite x w rest)
  | [], r :: rest, none => some (e.grantRead x r rest)
  | _, _, _ => none

/-- The Index Writer's burst, if it waits. -/
def Engine.grantIndex (e : Engine) : Option Engine :=
  match e.writer.inHand with
  | some (n, .asking) => some (e.grantRecord n)
  | _ => none

/-- R143: a free link is granted to the Record Port, else to the Index Writer, else to a picture writer. -/
def Engine.arbiterStep (x : Front) (e : Engine) : Option Engine :=
  if e.arbiter.busy.isSome then none
  else (e.grantPort x).or (e.grantIndex.or (e.grantPicture x))

end Sys2Proof.Machine
end

