-- ==== Sys2Proof/Machine/Settle.lean ====
section
/-! DEFINITION. What the part's blocks do of themselves once a command has had its own effect: the Attention Unit serves,
checks are evaluated, the Mover, the Reducer and the Index Writer choose, and a free link is granted, until nothing is left
to do. The spec counts all of it to the command's one step (95_what_each_step_holds). The order of acts that can be taken
in more than one order is DESIGN CHOICE, unsafe (log entry 9). -/

namespace Sys2Proof.Machine

/-- One act of the blocks that work on the engine alone, in the order of log entry 9: a fed take's check, the Mover, the
Reducer, the Index Writer. -/
def Engine.blockStep (x : Front) (e : Engine) : Option Engine :=
  (e.refeedStep x).or ((e.moverStep x).or ((e.reducerStep x).or (e.writerStep x)))

/-- One act of the part: the Attention Unit's before the other blocks', and the Link Arbiter's last. -/
def State.unitStep (s : State) : Option State :=
  s.serveStep.or
    (((s.eng.blockStep s.front).map fun e => { s with eng := e }).or
      (s.refillStep.or ((s.eng.arbiterStep s.front).map fun e => { s with eng := e })))

/-- Acts until nothing is left to do, at most `fuel` of them. -/
def State.settleFor : Nat → State → State
  | 0, s => s
  | fuel + 1, s =>
    match s.unitStep with
    | none => s
    | some s' => State.settleFor fuel s'

/-- How many acts one step may take. The acts of a step are bounded by the requests, frames, takes and entries the part
holds; this bound lies above their number (log entry 9). -/
def State.settleFuel (s : State) : Nat := 1000 + 32 * s.eng.takes.length

/-- The part after a command's own effect: every act it gives rise to is done. -/
def State.settle (s : State) : State := State.settleFor s.settleFuel s

end Sys2Proof.Machine
end

