-- ==== Sys2Proof/Machine/HostLink.lean ====
section
/-! DEFINITION. The host link's inbound side and its bursts' completion (R142, R146 to R149): what each completed read
gives the block that asked, what a failed read does, and the end of a burst. -/

namespace Sys2Proof.Machine

/-! ## Completed reads (R147) -/

/-- R155 to R157: a settings block has been read for feed `f` and request `req`. -/
def State.settingsRead (f : FeedId) (req : FeedRequest) (bytes : List Byte) (s : State) : State :=
  let s := s.endService
  match parseSettings bytes with
  | .error index => s.conclude f req .badSetting index
  | .ok b => if s.blockRefused f b then s.conclude f req .refusedState 0 else (s.handOver f b).conclude f req .done 0

/-- R34: the time load value has been read: it becomes the pending load, an earlier one being answered SUPERSEDED. -/
def State.timeValueRead (v : Count) (s : State) : State :=
  let s := match s.front.pendingLoad with
    | none => s
    | some _ => s.globalAnswer .timeLoad .superseded
  (s.onFront fun x => { x with pendingLoad := some ⟨v, loadWait⟩ }).endService

/-- R153, R166: the page header has been read. -/
def State.pageHeaderRead (bytes : List Byte) (s : State) : State :=
  if fieldAt bytes 0 4 = 1 ∧ fieldAt bytes 4 4 = 8192 then s.enterRunning else s.failStart

/-- R71: a count just read, held at the cursor. -/
def Space.post (n : Nat) (sp : Space) : Space := { sp with posted := max sp.cursor n }

/-- R71, R91, R93: a reread of the posted counts of take `t` has completed: an essence-starved take is to be checked
again, and index starvation ends when an index entry is unconsumed below the new count. A reread that completes while the
take's check still waits for an entry asks no second check: DESIGN CHOICE, log entry 31. -/
def Take.reread (posted : Nat × Nat × Nat) (t : Take) : Take :=
  let index := t.index.post posted.2.2
  { t with
    essence := t.essence.post posted.1
    browse := t.browse.post posted.2.1
    index := index
    indexStarved := t.indexStarved && index.posted ≤ index.cursor
    refeed := if t.essenceStarved then t.refeed.or (some .evaluate) else t.refeed }

/-- R71: the completed reread reaches its take and the feed's STARVED condition. -/
def Engine.postedRead (x : Front) (f : FeedId) (t : Nat) (bytes : List Byte) (e : Engine) : Engine :=
  (e.updTake t (Take.reread (parsePosted bytes))).syncConditions x f

/-- R69: the check that asked for an entry is to be evaluated again. Entries beyond it are held against the posted counts
as they then stand, also when a reread has changed them meanwhile: DESIGN CHOICE, log entry 31. -/
def Engine.resumeCheck (use : EntryUse) (t : Nat) (e : Engine) : Engine :=
  match use with
  | .mover =>
    match e.mover.state with
    | .checking i _ => e.setMover (.checking i .evaluate)
    | _ => e
  | .refeed => e.setRefeed t (some .evaluate)
  | .browse => e.setCheck (e.reducer.check.map fun p => (p.1, .evaluate))
  | .index => e.setInHand (some (t, .check .evaluate))

/-- R69, R71: entry `n` of list `l` of take `t` is below the list's last read posted count, as a consumed entry must be. -/
def Engine.entryPosted (e : Engine) (t : Nat) (l : ListName) (n : Nat) : Bool :=
  (e.take? t).any fun k => n < (k.space l).posted

/-- R69: an extent entry has been read and is consumed, unless a reread has meanwhile lowered the posted count to it
(R71). -/
def Engine.entryRead (use : EntryUse) (t n : Nat) (bytes : List Byte) (e : Engine) : Engine :=
  let e' := if e.entryPosted t use.list n then e.consume t use.list n (parseEntry bytes) else e
  e'.resumeCheck use t

/-- R147: the data of a completed read go to the block that asked. -/
def State.readArrives (r : ReadRequest) (bytes : List Byte) (s : State) : State :=
  match r with
  | .pageHeader => s.pageHeaderRead bytes
  | .timeValue => s.timeValueRead (BitVec.ofNat 48 (fieldAt bytes 0 8))
  | .settings f => s.settingsRead f .load bytes
  | .common f => s.settingsRead f .loadCommon bytes
  | .stagedAddress f => s.armAddressRead f (BitVec.ofNat 64 (fieldAt bytes 0 8))
  | .sheetHeader f sheet => s.armHeaderRead f sheet bytes
  | .armEntry f sheet n =>
    match s.front.attention.service with
    | some (.armEntries _ _ h _ rejected) => s.armEntryRead f sheet h n rejected (parseEntry bytes)
    | _ => s
  | .posted f t _ _ => s.act fun x e => e.postedRead x f t bytes
  | .entry use t _ n => s.act fun _ e => e.entryRead use t n bytes

/-! ## Failed reads (R147, R148) -/

/-- R69, R148: an entry read failed: the entry is not consumed, and is not yet posted for the check that asked. -/
def Engine.entryFailed (x : Front) (use : EntryUse) (t : Nat) (e : Engine) : Engine :=
  match use with
  | .mover =>
    match e.mover.state with
    | .checking i _ => e.moverCheck x i true
    | _ => e
  | .refeed =>
    match e.take? t with
    | some k => e.refeedCheck x k true
    | none => e
  | .browse =>
    match e.reducer.check with
    | some (i, _) => e.reducerCheck x i true
    | none => e
  | .index => e.writerCheck x t true

/-- R148: what a failed read does, by the block that asked. -/
def State.readFails (r : ReadRequest) (s : State) : State :=
  match r with
  | .pageHeader => s.failStart
  | .timeValue => s.endService.globalAnswer .timeLoad .linkError
  | .settings f => s.endService.conclude f .load .linkError 0
  | .common f => s.endService.conclude f .loadCommon .linkError 0
  | .stagedAddress f | .sheetHeader f _ | .armEntry f _ _ => s.armFails f .linkError
  | .posted _ _ _ _ => s
  | .entry use t _ _ => s.act fun x e => e.entryFailed x use t

/-- R147: the outstanding read becomes none. -/
def State.endRead (s : State) : State := s.act fun _ e => { e with port := { e.port with outstanding := none } }

/-- R147, R149: the outstanding read `o` fails: LINK_FAULT is set, and the block that asked is told unless it no longer
wants the result. -/
def State.failOutstanding (o : Outstanding) (s : State) : State :=
  let s := s.endRead.onFlags fun g => { g with linkFault := true }
  if o.wanted then s.readFails o.request else s

/-- A free value is used for the bytes of a completion that did not come (log entry 5). -/
def State.useFree (s : State) : State := s.onFront fun x => { x with freeCount := x.freeCount + 1 }

/-- R147, R149: the outstanding read `o` ends with data. -/
def State.endOutstanding (o : Outstanding) (bytes : List Byte) (s : State) : State :=
  let n := (o.request.span s.front.pageBase).2
  let data := completedBytes s.front.freeCount n bytes
  let s := if bytes.length < n then s.useFree else s
  if o.wanted then s.endRead.readArrives o.request data else s.endRead

/-! ## Meanings of the link's commands -/

/-- R147: the outstanding read `o` ends with a completion. -/
def State.completeOutstanding (o : Outstanding) (r : Reply) (s : State) : State :=
  match r with
  | .data bytes => s.endOutstanding o bytes
  | .error => s.failOutstanding o

/-- READ_COMPLETION (R147): the outstanding read ends when it is the one the completion answers. A completion for no
outstanding read, or for a read that has ended or that a reset discarded (R150), is disregarded. -/
def execReadCompletion (c : Completion) (s : State) : Host.Outcome State Fault Refusal :=
  match s.eng.port.outstanding with
  | none => .next s.settle
  | some o => .next (if o.number = c.read then (s.completeOutstanding o c.reply).settle else s.settle)

/-- READ_TIMEOUT (R147): the remaining time has reached 0 with no completion. -/
def execReadTimeout (s : State) : Host.Outcome State Fault Refusal :=
  match s.eng.port.outstanding with
  | some o => .next (if o.remaining = 0 then (s.failOutstanding o).settle else s.settle)
  | none => .next s.settle

/-- R144: what a burst brings to the host when all of it has been sent. -/
def Payload.delivery : Payload → List Delivery
  | .write addr bytes => [.write addr bytes]
  | .read _ _ => []
  | .message addr data => [.message addr data]

/-- R64, R142: the burst `b` is complete: the link is free, and a slot that drained for it returns to FREE. -/
def Engine.burstDone (b : Burst) (e : Engine) : Engine :=
  let e := { e with arbiter := { e.arbiter with busy := none } }
  match b.slot with
  | none => e
  | some i => if e.slots[i].any fun s => s.state == .draining then e.freeSlot i else e

/-- R142: a burst has been sent. -/
def State.burstSent (b : Burst) (s : State) : State :=
  (s.onFront fun x => { x with delivered := x.delivered ++ b.payload.delivery }).act fun _ e => e.burstDone b

/-- LINK_BURST_COMPLETE (R142): with a free link no burst is being sent, and nothing completes. -/
def execLinkBurstComplete (s : State) : Host.Outcome State Fault Refusal :=
  match s.eng.arbiter.busy with
  | some b => .next (s.burstSent b).settle
  | none => .next s.settle

/-- BROWSE_BAND_COMPLETE (R134). -/
def execBrowseBandComplete (s : State) : Host.Outcome State Fault Refusal :=
  .next (s.act fun x e => e.bandComplete x).settle

end Sys2Proof.Machine
end

