-- ==== Sys2Proof/Machine/Lines.lean ====
section
/-! DEFINITION. Lines and frames in card DRAM (section 1.5): storing a line that ended, the end of a line under either
framing, and the close of the open frame with concealment or as empty. -/

namespace Sys2Proof.Machine

/-- R52, section 11.7: the DRAM address of line `y` of the frame in slot `i`, with `w` pixels a line. -/
def lineAddr (i : SlotId) (w y : Nat) : Nat := i.val * slotBytes + y * (4 * w)

/-- A number joins an ascending list in its place, once. -/
def insertNat (y : Nat) (l : List Nat) : List Nat := l.filter (· < y) ++ y :: l.filter (y < ·)

/-- R13: a line of at least one pair, truncated or padded to `n` pairs by repeating its last pair. -/
def fitLine (n : Nat) (pairs : List PixelPair) : List PixelPair :=
  let kept := pairs.take n
  kept ++ List.replicate (n - kept.length) (kept.getLast?.getD 0)

/-- R11, R13: line `y` of the open frame `o` of feed `f` is written into its slot and joins the received-line set. -/
def State.storeLine (f : FeedId) (o : OpenFrame) (y : Nat) (pairs : List PixelPair) (s : State) : State :=
  let w := (s.front.settings f).w
  let stored := s.onFront fun x =>
    { x with dram := Dram.writeRange x.dram (lineAddr o.slot w y) (packLine (fitLine (w / 2) pairs)) }
  let o := { o with received := insertNat y o.received, padded := o.padded || pairs.length < w / 2 }
  stored.act fun _ e => { e with opened := upd e.opened f fun _ => some o }

/-! ## Close of a frame (R15 to R17) -/

/-- R16: the received line a missing line `y` is a copy of: the nearest above, else the nearest below. -/
def concealSource (received : List Nat) (y : Nat) : Nat :=
  match (received.filter (· < y)).getLast? with
  | some z => z
  | none => ((received.filter (y < ·)).head?).getD 0

/-- R16: the lines of a frame of `h` lines that were not received. -/
def missingLines (h : Nat) (received : List Nat) : List Nat := (List.range h).filter fun y => !received.contains y

/-- R16: the missing lines are filled with copies of received lines. -/
def Dram.conceal (m : Dram) (i : SlotId) (w h : Nat) (received : List Nat) : Dram :=
  (missingLines h received).foldl
    (fun m y => Dram.writeRange m (lineAddr i w y) (Dram.readRange m (lineAddr i w (concealSource received y)) (4 * w))) m

/-- R17: a frame that closes with no line received is counted as EMPTY_FRAME. -/
def Receiver.countEmpty (r : Receiver) : Receiver :=
  { r with tally := { r.tally with emptyFrame := bump r.tally.emptyFrame } }

/-- R15 to R17, R57: the open frame of feed `f`, if there is one, closes. -/
def State.closeFrame (f : FeedId) (s : State) : State :=
  match s.eng.opened[f] with
  | none => s
  | some o =>
    match o.received with
    | [] => (s.onReceiver f Receiver.countEmpty).act fun _ e => e.frameEmpty f o.slot
    | _ :: _ =>
      let n := s.front.settings f
      (s.onFront fun x => { x with dram := x.dram.conceal o.slot n.w n.h o.received }).act fun x e =>
        e.frameReady x f o.slot o.padded (missingLines n.h o.received).length

/-! ## The end of a line (R11, R12) -/

/-- R15: a MARKED frame with every line received closes. -/
def State.closeComplete (f : FeedId) (s : State) : State :=
  match s.eng.opened[f] with
  | none => s
  | some o => if (missingLines (s.front.settings f).h o.received).isEmpty then s.closeFrame f else s

/-- R11: a Line End on a MARKED feed, for the line buffer `line`. -/
def State.endMarked (f : FeedId) (line : LineBuffer) (s : State) : State :=
  match line, s.eng.opened[f] with
  | .numbered y (p :: ps), some o => (s.storeLine f o y (p :: ps)).closeComplete f
  | _, _ => s

/-- The pixel pairs of a counted line. -/
def LineBuffer.counts : LineBuffer → List PixelPair
  | .counted pairs => pairs
  | .empty | .discarding | .numbered _ _ => []

/-- R12: a Line End on a COUNTED feed, for the line buffer `line`: a skipped line, an active line that is stored when a
pair is taken from it, and the close at active line H − 1. A Line End ahead of the frame's first Sample data ends a line
too, as R12 has it of every Line End, although it has the first line begin with Sample data: DESIGN CHOICE, log entry 37. -/
def State.endCounted (f : FeedId) (line : LineBuffer) (s : State) : State :=
  match s.eng.opened[f] with
  | none => s
  | some o =>
    let counted := { o with lines := o.lines + 1 }
    if o.lines < o.topSkip then s.act fun _ e => { e with opened := upd e.opened f fun _ => some counted }
    else
      let y := o.lines - o.topSkip
      let s := match line.counts.drop (o.leftSkip / 2) with
        | [] => s.act fun _ e => { e with opened := upd e.opened f fun _ => some counted }
        | p :: ps => s.storeLine f counted y (p :: ps)
      if (s.front.settings f).h ≤ y + 1 then s.closeFrame f else s

/-- R11, R12: a Line End ends the line in progress. -/
def State.endLine (f : FeedId) (s : State) : State :=
  let r := s.receiver f
  let s := s.onReceiver f fun r => { r with line := .empty }
  match r.settings.framing with
  | .marked => s.endMarked f r.line
  | .counted => s.endCounted f r.line

end Sys2Proof.Machine
end

