-- ==== Sys2Proof/Machine/Membership.lean ====
section
/-! DEFINITION. Membership of admitted frames (section 5.3): the start and stop tests, splits, the slot a frame is asked,
and the records of a slotted frame. -/

namespace Sys2Proof.Machine

/-- The Take Controller's answer to an admission (R9). -/
inductive Verdict where
  | outside
  | slotted
  | overrun
deriving DecidableEq, Repr

/-- R75, R77: a start condition holds on a frame. CONTIGUOUS never holds by test. -/
def startHolds (x : Front) (f : FeedId) (mode : StartMode) (param : BitVec 64) (a : Admission) : Bool :=
  match mode with
  | .immediate => true
  | .atTime => Count.atOrAfter (param.setWidth 48) a.capture
  | .atTimecode => (x.settings f).rate.timecodeHolds param a.placed.tc.day
  | .contiguous => false

/-- R76, R80: the reason for which Live's own stop excludes a frame, if one does. -/
def ownStop (x : Front) (f : FeedId) (t : Take) (a : Admission) : Option CloseReason :=
  if t.stopMode = .atTime ∧ Count.atOrAfter (t.stopParam.setWidth 48) a.capture then some .stopTime
  else if t.stopMode = .atTimecode ∧ (x.settings f).rate.timecodeHolds t.stopParam a.placed.tc.day then
    some .stopTimecode
  else if positionLimit ≤ t.position then some .frameCount
  else none

/-- R46: the classification of a frame slotted into take `t`; the frame at position 0 is not classified. -/
def Take.classify (s : Settings) (t : Take) (a : Admission) : Continuity :=
  match t.position, t.lastDay with
  | _ + 1, some last => s.rate.classify s.gapLimit last a.placed.tc.day a.tally
  | _, _ => .continuous

/-- R108, R109: the ordinary event records a slotted frame queues ahead of its placeholder. -/
def Take.frameRecords (s : Settings) (now : Bool) (measured : Nat) (t : Take) (a : Admission) : List RecordBody :=
  if t.firstFrame then
    laterFrameRecords t.cadenceRecorded now measured a
      (continuityRecords s.rate (t.lastDay.getD 0) a (t.classify s a))
  else firstFrameRecords t.cadenceRecorded now measured a

/-- R47: the notice cause a classification raises. -/
def Engine.raiseContinuity (x : Front) (f : FeedId) (e : Engine) : Continuity → Engine
  | .continuous => e
  | .gap _ => e.raise x f .gap
  | .discontinuity => e.raise x f .discontinuity

/-- R8, R11, R12: the feed's open frame when it is slotted. -/
def OpenFrame.fresh (s : Settings) (i : SlotId) : OpenFrame := ⟨i, [], 0, false, s.topSkip, s.leftSkip⟩

/-- R80: a frame that belongs to take `n` is asked a slot at the take's position counter. -/
def Engine.slotFrame (x : Front) (f : FeedId) (n : Nat) (a : Admission) (e : Engine) : Engine × Verdict :=
  match e.take? n with
  | none => (e, .outside)
  | some t =>
    if positionLimit ≤ t.position then (e, .overrun)
    else match e.grantable x f with
      | none => (e, .overrun)
      | some i =>
        let s := x.settings f
        let now := x.timers[f].cadenceOff
        let measured := (x.timers[f].measured).getD 0
        let e := e.grantSlot f n t.position i
        let e := { e with opened := upd e.opened f fun _ => some (OpenFrame.fresh s i) }
        let e := e.queueEvents n (t.frameRecords s now measured a)
        let e := e.queueFrame n ⟨t.position, a.placed.tc, a.capture, a.placed.substituted, i, none⟩
        let e := e.updTake n fun k => { k with
          position := k.position + 1
          lastDay := some a.placed.tc.day
          cadenceRecorded := now
          firstFrame := true }
        (e.raiseContinuity x f (t.classify s a), .slotted)

/-- R76: an AFTER_FRAMES take whose position N − 1 was granted closes right after the frame, or defers (R87). -/
def Engine.afterGrant (f : FeedId) (t : Take) (a : Admission) (e : Engine) : Engine :=
  if t.stopMode = .afterFrames ∧ t.position + 1 = t.frameLimit ∧ e.places[f].deferredStop = none then
    (if e.closingFull f then e.deferStop f t .frameCount
     else (e.closeLive f t .frameCount a.capture).promoteAfterClose f .frameCount)
  else e

/-- R80, R76: the frame belongs to take `n`, which stands in Live. -/
def Engine.belong (x : Front) (f : FeedId) (n : Nat) (a : Admission) (e : Engine) : Engine × Verdict :=
  match e.take? n with
  | none => (e, .outside)
  | some t =>
    match e.slotFrame x f n a with
    | (e, .slotted) => (e.afterGrant f t a, .slotted)
    | r => r

/-- R79: take `n`, which stands in Live, begins on the frame, and the frame belongs to it. -/
def Engine.beginOn (x : Front) (f : FeedId) (n : Nat) (a : Admission) (e : Engine) : Engine × Verdict :=
  (e.beginTake x f n true a.capture a.placed.tc).belong x f n a

/-- The Staged take `g` takes Live's place (R77, R78). -/
def Engine.stagedToLive (f : FeedId) (g : Take) (e : Engine) : Engine :=
  e.updPlaces f fun p => { p with live := some g.id, staged := none }

/-- R77: the frame meets the Staged take `g`'s start condition: Live `t` closes with the frame excluded and `g` begins
on it, or the stop is deferred and the frame belongs to Live. -/
def Engine.splitOn (x : Front) (f : FeedId) (t g : Take) (reason : CloseReason) (a : Admission) (e : Engine) :
    Engine × Verdict :=
  if e.closingFull f then (e.deferStop f t reason).belong x f t.id a
  else ((e.closeLive f t reason a.capture).stagedToLive f g).beginOn x f g.id a

/-- R76, R78: Live `t`'s own stop excludes the frame; a Staged CONTIGUOUS take begins on it after a time stop. At the
position limit (R80), where R78's row speaks of a close after the frame, it begins at the next admitted frame: DEDUCED,
log entry 13. -/
def Engine.stopOn (x : Front) (f : FeedId) (t : Take) (reason : CloseReason) (a : Admission) (e : Engine) :
    Engine × Verdict :=
  if e.closingFull f then (e.deferStop f t reason).belong x f t.id a
  else
    let closed := e.closeLive f t reason a.capture
    match e.stagedTake f with
    | some g =>
      if g.startMode = .contiguous ∧ reason ≠ .frameCount then (closed.stagedToLive f g).beginOn x f g.id a
      else (closed.promoteAfterClose f reason, .outside)
    | none => (closed, .outside)

/-- R76, R77: an admitted frame while Live `t` is RECORDING. -/
def Engine.admitRecording (x : Front) (f : FeedId) (t : Take) (a : Admission) (e : Engine) : Engine × Verdict :=
  if e.places[f].deferredStop.isSome then e.belong x f t.id a
  else
    let own := ownStop x f t a
    match (e.stagedTake f).filter fun g => startHolds x f g.startMode g.startParam a with
    | some g => e.splitOn x f t g (own.getD .split) a
    | none =>
      match own with
      | some reason => e.stopOn x f t reason a
      | none => e.belong x f t.id a

/-- R75: an admitted frame while Live `t` is ARMED. -/
def Engine.admitArmed (x : Front) (f : FeedId) (t : Take) (a : Admission) (e : Engine) : Engine × Verdict :=
  if startHolds x f t.startMode t.startParam a then e.beginOn x f t.id a else (e, .outside)

/-- R71, R75 to R80: an admitted frame of feed `f`: the rereads of the Live take and of the Closing takes are asked, then
membership is decided (log entry 10). -/
def Engine.takeFrame (x : Front) (f : FeedId) (a : Admission) (e : Engine) : Engine × Verdict :=
  let e := (e.standingTakes f).foldl (fun e t => e.askReread false t) e
  match e.liveTake f with
  | none => (e, .outside)
  | some t => if t.state = .armed then e.admitArmed x f t a else e.admitRecording x f t a

end Sys2Proof.Machine
end

