-- ==== Sys2Proof/Machine/Lane.lean ====
section
/-! DEFINITION. The Feed Receiver's side of the lane commands (chapter 1, with the Reference Timer's part in an accepted
header, R28 to R33): symbols, headers, lock, admission, metadata, signal loss and return. -/

namespace Sys2Proof.Machine

/-! ## Taking symbols (R1, R2) -/

/-- R1, R6: the Feed Receiver takes the lane's symbols: the feed is enabled and its signal is present. -/
def Receiver.listens (r : Receiver) : Bool := r.enabled && r.signal

/-- A Live take of feed `f` is RECORDING. -/
def State.recording (s : State) (f : FeedId) : Bool := (s.eng.recordingTake f).isSome

/-- R3: the header in progress is broken: it is discarded, and counted while a take records. -/
def State.breakHeader (f : FeedId) (s : State) : State :=
  let counts := s.recording f
  s.onReceiver f fun r =>
    { r with inHeader := false, tally := if counts then { r.tally with broken := bump r.tally.broken } else r.tally }

/-- R2, R3: a symbol other than Idle arrives; a header in progress is cut off. -/
def State.cutHeader (f : FeedId) (s : State) : State := if (s.receiver f).inHeader then s.breakHeader f else s

/-- R1, R2: a symbol arrives on lane `f`: discarded unless the receiver listens; else a header in progress is cut off
and the symbol is taken. -/
def State.symbol (f : FeedId) (taken : State → State) (s : State) : State :=
  if (s.receiver f).listens then taken (s.cutHeader f) else s

/-! ## Lines -/

/-- R11: a Line Marker on a MARKED feed cuts off the line in progress and starts a line; COUNTED framing disregards it
(R12). -/
def Receiver.takeMarker (chars : List Byte) (r : Receiver) : Receiver :=
  match r.settings.framing with
  | .counted => r
  | .marked =>
    match parseMarker chars with
    | some y => { r with line := if y < r.settings.h then .numbered y [] else .discarding }
    | none => { r with line := .discarding }

/-- R11, R12: a complete pixel pair joins the line in progress; `isOpen` says that the feed has an open frame. -/
def Receiver.takePair (isOpen : Bool) (p : PixelPair) (r : Receiver) : Receiver :=
  match r.settings.framing, r.line with
  | .marked, .numbered y pairs => { r with line := .numbered y (pairs ++ [p]) }
  | .marked, _ => r
  | .counted, line => if isOpen then { r with line := .counted (line.counts ++ [p]) } else r

/-- R179: a Sample data symbol; an incomplete pair is discarded. -/
def State.takeSample (f : FeedId) (chars : List Byte) (s : State) : State :=
  match parsePair chars with
  | none => s
  | some p => s.onReceiver f (Receiver.takePair (s.eng.opened[f]).isSome p)

/-! ## Metadata (R19, R20) -/

/-- A tag joins the changed set, which holds each tag once, ascending. -/
def insertTag (t : Byte) (l : List Byte) : List Byte := l.filter (· < t) ++ t :: l.filter (t < ·)

/-- An item joins the record in the place of its tag, ascending. -/
def insertItem (i : Item) (l : List Item) : List Item :=
  l.filter (fun k => k.tag < i.tag) ++ i :: l.filter (fun k => i.tag < k.tag)

/-- R19, R20: one item is applied to the Field Metadata Record. -/
def Receiver.applyItem (r : Receiver) (i : Item) : Receiver :=
  if i.tag = 0 then r
  else match r.metadata.find? (fun k => k.tag == i.tag) with
  | some old =>
    if i.value = 0 then
      { r with metadata := r.metadata.filter (fun k => k.tag != i.tag), changed := insertTag i.tag r.changed }
    else if old.value = i.value then r
    else { r with metadata := insertItem i r.metadata, changed := insertTag i.tag r.changed }
  | none =>
    if i.value = 0 ∨ 8 ≤ r.metadata.length then r
    else { r with metadata := insertItem i r.metadata, changed := insertTag i.tag r.changed }

/-! ## Accepted headers (R4) -/

/-- R28: a capture joins the history, which holds at most nine. -/
def pushCapture (c : Count) (history : List Count) : List Count :=
  (history ++ [c]).drop (history.length + 1 - 9)

/-- R30: the measured period of a full history, none when it holds fewer than nine entries. -/
def measuredPeriod (history : List Count) : Option Nat :=
  match history.head?, history.getLast? with
  | some oldest, some newest => if 9 ≤ history.length then some ((newest - oldest).toNat / 8) else none
  | _, _ => none

/-- R28, R30, R32: the Reference Timer takes a capture. -/
def FeedTimer.capture (n : Settings) (c : Count) (t : FeedTimer) : FeedTimer :=
  let history := pushCapture c t.history
  let judged := { t with history := history, deadline := some (n.lossWindow * n.rate.pnom) }
  match measuredPeriod history with
  | none => judged
  | some p => { judged with measured := some p, cadenceOff := !inTolerance n.rate n.tolerance p }

/-- R28, R30: the capture of an accepted header, with the write of a changed measured period and the cadence cause. R30
gives these two no order; the model asks the period ahead of the cause mirror (R170): DESIGN CHOICE, log entry 38. -/
def State.capture (f : FeedId) (s : State) : State :=
  let before := s.front.timers[f].measured
  let s := s.onFront fun x => x.updTimer f (FeedTimer.capture (x.settings f) x.refCount)
  let s := if s.front.timers[f].measured = before then s else s.act fun _ e => e.ask (.period f)
  s.sync f

/-- R29: the interval between the two newest captures is in tolerance; false when there is no previous capture. -/
def FeedTimer.intervalGood (n : Settings) (t : FeedTimer) : Bool :=
  match t.history.reverse with
  | newest :: previous :: _ => inTolerance n.rate n.tolerance (newest - previous).toNat
  | _ => false

/-- R43: the placement of a header under the feed's active rate class. -/
def State.place (s : State) (f : FeedId) (h : HeaderFields) : Placed :=
  placeLabel (s.front.settings f).rate (s.receiver f).expected h.tcPresent h.label

/-- R44: the expectation advances. -/
def State.expectNext (f : FeedId) (p : Placed) (s : State) : State :=
  let rate := (s.front.settings f).rate
  s.onReceiver f fun r => { r with expected := some (rate.nextDay p.tc.day) }

/-- R4: the header's rate class, W and H are those of the active settings (R178: a code outside the table is not). -/
def HeaderFields.agrees (h : HeaderFields) (n : Settings) : Bool :=
  parseRate h.rateCode == some n.rate && h.w == n.w && h.h == n.h

/-- R4: a FORMAT_MISMATCH header. -/
def State.mismatch (f : FeedId) (s : State) : State :=
  let counts := s.recording f
  s.onReceiver f fun r =>
    { r with
      tally := if counts then { r.tally with mismatch := bump r.tally.mismatch } else r.tally
      candidate := if r.link = .seeking then false else r.candidate }

/-- R8, R9: an admitted frame and the Feed Receiver's act on the answer. -/
def State.admitFrame (f : FeedId) (p : Placed) (s : State) : State :=
  let r := s.receiver f
  let answer := s.eng.takeFrame s.front f ⟨s.front.refCount, p, r.relock, r.tally, r.metadata, r.changed⟩
  let s := { s with eng := answer.1 }
  match answer.2 with
  | .outside => s
  | .slotted => s.onReceiver f fun r => { r with tally := .zero, changed := [], relock := none }
  | .overrun => s.onReceiver f fun r => { r with tally := { r.tally with overrun := bump r.tally.overrun } }

/-- R5, R7: the link locks at this header; a loss condition ends and leaves the relock mark. The write of the link state
is asked ahead of the mirror of the LOST that leaves (R170): DESIGN CHOICE, log entry 38. -/
def State.lock (f : FeedId) (s : State) : State :=
  let capture := s.front.refCount
  ((s.onReceiver f fun r =>
    { r with candidate := false, hasLocked := true, relock := if r.hasLocked then some capture else r.relock }).setLink f
      .locked).sync f

/-- R4, steps 4 and 5: the header is compared with the active format and handled by link state. -/
def State.judgeHeader (f : FeedId) (h : HeaderFields) (p : Placed) (s : State) : State :=
  let n := s.front.settings f
  if h.agrees n then
    match (s.receiver f).link with
    | .dark => s
    | .locked => s.admitFrame f p
    | .seeking =>
      if (s.receiver f).candidate ∧ s.front.timers[f].intervalGood n then (s.lock f).admitFrame f p
      else s.onReceiver f fun r => { r with candidate := true }
  else s.mismatch f

/-- R4: an accepted header of feed `f`. -/
def State.acceptHeader (f : FeedId) (h : HeaderFields) (s : State) : State :=
  let s := (s.onReceiver f fun r => { r with inHeader := false }).applyPending f
  if (s.receiver f).enabled then
    let s := s.capture f
    let p := s.place f h
    (s.expectNext f p).judgeHeader f h p
  else s

/-! ## Leaving LOCKED (R6) -/

/-- R6, R103: a link-loss event; LINK_LOSS is queued to the Live take if it is RECORDING. -/
def State.linkLoss (f : FeedId) (cause : LossCause) (s : State) : State :=
  match s.eng.recordingTake f with
  | none => s
  | some t => s.act fun x e => e.queueEvent t.id (.linkLoss x.refCount cause)

/-- R6: the link of feed `f` leaves LOCKED for `l`: the open frame closes, the loss is reported, and pending settings
are applied. The write of the link state is asked ahead of the mirror of LOST (R170): DESIGN CHOICE, log entry 38. -/
def State.leaveLocked (f : FeedId) (l : Link) (cause : LossCause) (s : State) : State :=
  ((((s.setLink f l).closeFrame f).linkLoss f cause).sync f).applyPending f

/-! ## Meanings of the lane commands -/

/-- SIGNAL_LOSS (R6, R14): a header and a line in progress are cut off; a LOCKED link leaves LOCKED, a SEEKING one goes
DARK. -/
def execSignalLoss (f : FeedId) (s : State) : Host.Outcome State Fault Refusal :=
  let r := s.receiver f
  let lost := s.onReceiver f fun r => { r with signal := false }
  if r.listens then
    let cut := (lost.cutHeader f).onReceiver f fun r => { r with line := .empty, candidate := false }
    .next ((if r.link = .locked then cut.leaveLocked f .dark .dark else cut.setLink f .dark).settle)
  else .next lost.settle

/-- SIGNAL_RETURN (R5): an enabled DARK feed goes to SEEKING. -/
def execSignalReturn (f : FeedId) (s : State) : Host.Outcome State Fault Refusal :=
  let r := s.receiver f
  let back := s.onReceiver f fun r => { r with signal := true }
  .next (if r.enabled ∧ r.link = .dark then
    ((back.onReceiver f fun r => { r with candidate := false }).setLink f .seeking).settle
  else back.settle)

/-- FRAME_HEADER_START (R3): the open frame closes with cause next header, and the line in progress is cut off. -/
def execFrameHeaderStart (f : FeedId) (s : State) : Host.Outcome State Fault Refusal :=
  .next (s.symbol f fun s =>
    (s.onReceiver f fun r => { r with line := .empty, inHeader := true }).closeFrame f).settle

/-- FRAME_HEADER (R3, R4): the header in progress is complete: accepted when its check sum holds, broken otherwise. A
last field that is no header's, or that has not arrived, changes nothing. -/
def execFrameHeader (f : FeedId) (chars : List Byte) (s : State) : Host.Outcome State Fault Refusal :=
  let r := s.receiver f
  .next (if r.listens && r.inHeader && decide (12 ≤ chars.length) then
    (if headerGood chars then s.acceptHeader f (parseHeader chars) else s.breakHeader f).settle
  else s.settle)

/-- LINE_MARKER (R11). -/
def execLineMarker (f : FeedId) (chars : List Byte) (s : State) : Host.Outcome State Fault Refusal :=
  .next (s.symbol f fun s => s.onReceiver f (Receiver.takeMarker chars)).settle

/-- SAMPLE_DATA (R179). -/
def execSampleData (f : FeedId) (chars : List Byte) (s : State) : Host.Outcome State Fault Refusal :=
  .next (s.symbol f (State.takeSample f chars)).settle

/-- LINE_END (R11). -/
def execLineEnd (f : FeedId) (s : State) : Host.Outcome State Fault Refusal :=
  .next (s.symbol f (State.endLine f)).settle

/-- METADATA_PACKET (R19). -/
def execMetadataPacket (f : FeedId) (chars : List Byte) (s : State) : Host.Outcome State Fault Refusal :=
  .next (s.symbol f fun s => s.onReceiver f fun r => (parsePacket chars).foldl Receiver.applyItem r).settle

end Sys2Proof.Machine
end

