-- ==== Sys2Proof/Machine/Clock.lean ====
section
/-! DEFINITION. Reference time (chapter 2): loss deadlines, REF_PULSE edges, the wait of a pending time load, and the
reference tick an idle step takes. A remaining duration that stands at 0 is due: its expiry is a command, and an idle step
takes it if no command has (log entries 1 and 3). -/

namespace Sys2Proof.Machine

/-! ## Expiries -/

/-- R6, R33: the loss deadline of feed `f` expires: a LOCKED link goes to SEEKING, a SEEKING link loses its candidate. -/
def State.expireDeadline (f : FeedId) (s : State) : State :=
  let s := s.onFront fun x => x.updTimer f fun t => { t with deadline := none }
  match (s.receiver f).link with
  | .dark => s
  | .seeking => s.onReceiver f fun r => { r with candidate := false }
  | .locked =>
    (s.onReceiver f fun r => { r with line := .empty, candidate := false }).leaveLocked f .seeking .deadline

/-- The loss deadline of feed `f` has reached 0. -/
def Front.deadlineDue (x : Front) (f : FeedId) : Bool := x.timers[f].deadline == some 0

/-- The wait of the pending time load has reached 0. -/
def Front.loadDue (x : Front) : Bool := x.pendingLoad.any fun l => l.wait == 0

/-- R36: the pending time load is abandoned and answered NO_PULSE. -/
def State.expireLoad (s : State) : State :=
  (s.onFront fun x => { x with pendingLoad := none }).globalAnswer .timeLoad .noPulse

/-- R33: the expiry of feed `f`'s deadline, if it is due. -/
def State.takeDeadline (s : State) (f : FeedId) : State := if s.front.deadlineDue f then s.expireDeadline f else s

/-- R36: the end of the wait, if it is due. -/
def State.takeLoadWait (s : State) : State := if s.front.loadDue then s.expireLoad else s

/-- R147: the timeout of the outstanding read, if it is due. -/
def State.takeReadTimeout (s : State) : State :=
  match s.eng.port.outstanding with
  | some o => if o.remaining = 0 then s.failOutstanding o else s
  | none => s

/-! ## The reference tick (R25) -/

/-- Every expiry that is due. -/
def State.takeDue (s : State) : State := ((List.finRange 16).foldl State.takeDeadline s).takeLoadWait.takeReadTimeout

/-- R25, R32, R34, R146: the Reference Count advances by one, and every remaining duration decreases by one. -/
def State.advance (s : State) : State :=
  (s.onFront fun x => { x with
    refCount := x.refCount + 1
    pendingLoad := x.pendingLoad.map fun l => { l with wait := l.wait - 1 }
    timers := x.timers.map fun t => { t with deadline := t.deadline.map (· - 1) } }).act fun _ e =>
  { e with port := { e.port with outstanding := e.port.outstanding.map fun o => { o with remaining := o.remaining - 1 } } }

/-- The idle step: what is due expires, and one reference tick passes. DESIGN CHOICE (log entry 1): the spec's commands
have no tick of their own. -/
def State.tick (s : State) : State := s.takeDue.settle.advance

/-! ## Meanings of the clock's commands -/

/-- LOSS_DEADLINE_EXPIRY (R33): the deadline has reached 0. -/
def execLossDeadlineExpiry (f : FeedId) (s : State) : Host.Outcome State Fault Refusal :=
  .next (s.takeDeadline f).settle

/-- R35: the pending time load takes effect. -/
def State.applyLoad (l : TimeLoad) (s : State) : State :=
  (s.onFront fun x => { x with
    refCount := l.value
    timers := x.timers.map fun t => { t with history := [] }
    pendingLoad := none }).globalAnswer .timeLoad .done

/-- REF_PULSE_EDGE (R35): an edge with no pending load has no effect. -/
def execRefPulseEdge (s : State) : Host.Outcome State Fault Refusal :=
  match s.front.pendingLoad with
  | some l => .next (s.applyLoad l).settle
  | none => .next s.settle

/-- TIME_LOAD_WAIT_EXPIRY (R36): the wait has reached 0. -/
def execTimeLoadWaitExpiry (s : State) : Host.Outcome State Fault Refusal := .next s.takeLoadWait.settle

end Sys2Proof.Machine
end

