-- ==== Sys2Proof/Machine/Registers.lean ====
section
/-! DEFINITION. The meanings of the other accesses to the register window (R27, R165, R168, R171, R174, R175). -/

namespace Sys2Proof.Machine

/-! ## NOTICE and NOTICE_MASK -/

/-- R174: a host write that brings the masked value to zero clears the message-owed mark. -/
def Engine.settleOwed (mask : BitVec 17) (e : Engine) : Engine :=
  if e.notices.maskedOn mask then e else { e with notices := { e.notices with messageOwed := false } }

/-- R171: feed bit `f` of a NOTICE write: every event cause leaves the set. -/
def Engine.clearEvents (x : Front) (e : Engine) (f : FeedId) : Engine :=
  e.setCauses x f (e.notices.causes[f] &&& ~~~eventCauses)

/-- R171: the global bit of a NOTICE write. -/
def Engine.clearGlobal (word : BitVec 32) (e : Engine) : Engine :=
  if word.getLsbD 16 then { e with notices := { e.notices with globalMark := false } } else e

/-- The feeds whose bits a NOTICE write has as 1, lowest first, in which order their mirror writes are asked: DESIGN CHOICE,
log entry 39. -/
def noticeFeeds (word : BitVec 32) : List FeedId := (List.finRange 16).filter fun f => word.getLsbD f.val

/-- NOTICE_WRITE (R171). -/
def execNoticeWrite (word : BitVec 32) (s : State) : Host.Outcome State Fault Refusal :=
  .next (s.act fun x e =>
    (((noticeFeeds word).foldl (Engine.clearEvents x) e).clearGlobal word).settleOwed x.noticeMask).settle

/-- R174: NOTICE_MASK takes its 17 bits of a word; a zero-to-nonzero change of the masked value owes a message. -/
def State.setMask (word : BitVec 32) (s : State) : State :=
  let before := s.eng.notices.maskedOn s.front.noticeMask
  (s.onFront fun x => { x with noticeMask := word.setWidth 17 }).act fun x e =>
    Engine.settleOwed x.noticeMask (Engine.oweMessage x before e)

/-- NOTICE_MASK_WRITE (R174). -/
def execNoticeMaskWrite (word : BitVec 32) (s : State) : Host.Outcome State Fault Refusal := .next (s.setMask word).settle

/-! ## PART_STATUS, PAGE_BASE, REF_COUNT -/

/-- R175: the flags after a PART_STATUS write; PAGE_FAULT and the part state take no writes. -/
def StatusFlags.written (word : BitVec 32) (g : StatusFlags) : StatusFlags :=
  { g with
    resetSeen := g.resetSeen && !word.getLsbD 8
    linkFault := g.linkFault && !word.getLsbD 9
    attentionIgnored := g.attentionIgnored && !word.getLsbD 11 }

/-- PART_STATUS_WRITE (R175). -/
def execPartStatusWrite (word : BitVec 32) (s : State) : Host.Outcome State Fault Refusal :=
  .next (s.onFlags (StatusFlags.written word)).settle

/-- R165: a word of PAGE_BASE is replaced. -/
def Front.setPage (high : Bool) (word : BitVec 32) (x : Front) : Front :=
  { x with pageBase := if high then word ++ x.pageBase.extractLsb' 0 32 else x.pageBase.extractLsb' 32 32 ++ word }

/-- PAGE_BASE_WRITE (R165): taken in STANDBY while the write list is empty, ignored otherwise. -/
def execPageBaseWrite (high : Bool) (word : BitVec 32) (s : State) : Host.Outcome State Fault Refusal :=
  .next (if s.front.attention.part = .standby ∧ s.eng.port.writes = [] then
    (s.onFront (Front.setPage high word)).settle
  else s.settle)

/-- R27: the low word is read, and the high latch takes bits 32 to 47. -/
def Front.readLow (x : Front) : Front :=
  { x with readData := x.refCount.extractLsb' 0 32, refLatch := x.refCount.extractLsb' 32 16 }

/-- REF_COUNT_LOW_READ (R27). -/
def execRefCountLowRead (s : State) : Host.Outcome State Fault Refusal := .next (s.onFront Front.readLow).settle

/-- IGNORED_REGISTER_WRITE (R27, R168): a write where no register takes writes. -/
def execIgnoredRegisterWrite (_offset : BitVec 8) (_word : BitVec 32) (s : State) : Host.Outcome State Fault Refusal :=
  .next s.settle

end Sys2Proof.Machine
end

