-- ==== Sys2Proof/Machine/Requests.lean ====
section
/-! DEFINITION. The meanings of the ATTENTION writes (section 9.3): each is decoded under the part state of the moment
(R159), and what the Attention Unit then serves belongs to the same step. -/

namespace Sys2Proof.Machine

/-- LOAD (R157). -/
def execLoad (mask : BitVec 16) (s : State) : Host.Outcome State Fault Refusal := .next (s.attentionFeed .load mask).settle

/-- LOAD_COMMON (R158). -/
def execLoadCommon (mask : BitVec 16) (s : State) : Host.Outcome State Fault Refusal :=
  .next (s.attentionFeed .loadCommon mask).settle

/-- ARM (R73, R74). -/
def execArm (mask : BitVec 16) (s : State) : Host.Outcome State Fault Refusal := .next (s.attentionFeed .arm mask).settle

/-- STOP (R81). -/
def execStop (mask : BitVec 16) (s : State) : Host.Outcome State Fault Refusal := .next (s.attentionFeed .stop mask).settle

/-- HALT (R82). -/
def execHalt (mask : BitVec 16) (s : State) : Host.Outcome State Fault Refusal := .next (s.attentionFeed .halt mask).settle

/-- ABORT (R83). -/
def execAbort (mask : BitVec 16) (s : State) : Host.Outcome State Fault Refusal := .next (s.attentionFeed .abort mask).settle

/-- REFILL (R84). -/
def execRefill (mask : BitVec 16) (s : State) : Host.Outcome State Fault Refusal :=
  .next (s.attentionFeed .refill mask).settle

/-- FEED_RESET (R164). -/
def execFeedReset (mask : BitVec 16) (s : State) : Host.Outcome State Fault Refusal :=
  .next (s.attentionFeed .feedReset mask).settle

/-- START (R166): a global request disregards the mask. -/
def execStart (_mask : BitVec 16) (s : State) : Host.Outcome State Fault Refusal := .next (s.attentionGlobal .start).settle

/-- STANDBY (R167). -/
def execStandby (_mask : BitVec 16) (s : State) : Host.Outcome State Fault Refusal :=
  .next (s.attentionGlobal .standby).settle

/-- TIME_LOAD (R34). -/
def execTimeLoad (_mask : BitVec 16) (s : State) : Host.Outcome State Fault Refusal :=
  .next (s.attentionGlobal .timeLoad).settle

/-- ATTENTION_IGNORED (R159): an ATTENTION write of the whole word, decoded when it arrives: a dropped one sets
ATTENTION_IGNORED (log entry 8). -/
def execAttentionIgnored (word : BitVec 32) (s : State) : Host.Outcome State Fault Refusal :=
  .next (s.attentionWrite word).settle

end Sys2Proof.Machine
end

