-- ==== Sys2Proof/Machine/Resets.lean ====
section
/-! DEFINITION. The meanings of the two resets (R24, R25, R37, R67, R97, R120, R138, R150, R168, R176). Neither writes
host memory; what the link had delivered stays delivered. -/

namespace Sys2Proof.Machine

/-- R150: what of a burst had left the part when a reset discarded it: the first `n` of its bytes. -/
def Payload.cut (n : Nat) : Payload → List Delivery
  | .write addr bytes => if n = 0 then [] else [.write addr (bytes.take n)]
  | .read _ _ => []
  | .message addr data => if n = 0 then [] else [.message addr data]

/-- R150: the burst being sent is discarded; how much of it had left the part is a free value (log entry 4). -/
def State.deliveredAtReset (s : State) : List Delivery :=
  match s.eng.arbiter.busy with
  | none => s.front.delivered
  | some b => s.front.delivered ++ b.payload.cut (Config.bytesSentAtReset s.front.freeCount)

/-- The front after a reset that keeps the Reference Count `count` and the lanes whose signal is present. Card DRAM is
not cleared (R67), and host memory keeps what was delivered (R150). -/
def State.frontAtReset (s : State) (count : Count) (signal : FeedId → Bool) : Front :=
  { Front.reset with
    refCount := count
    dram := s.front.dram
    delivered := s.deliveredAtReset
    freeCount := s.front.freeCount + 1
    receivers := Vector.ofFn fun f => { Receiver.reset with signal := signal f } }

/-- The blocks after a reset. The numbers of issued reads go on, so that a completion of a discarded read is told from
those of later reads (R150, log entry 36). -/
def Engine.atReset (e : Engine) : Engine := { Engine.reset with port := { Engine.reset.port with issued := e.port.issued } }

/-- POWER_ON_RESET (R24): every block's reset state, the Reference Count 0, RESET_SEEN 1. No lane's signal is present
until a signal return (log entry 6). -/
def execPowerOnReset (s : State) : Host.Outcome State Fault Refusal :=
  .next { s with front := s.frontAtReset 0 fun _ => false, eng := s.eng.atReset }

/-- HOST_LINK_RESET (R150): the Reference Count keeps running (R25), and the lane receivers go on observing their
lanes (R1, R24). -/
def execHostLinkReset (s : State) : Host.Outcome State Fault Refusal :=
  .next { s with
    front := s.frontAtReset s.front.refCount fun f => (s.receiver f).signal
    eng := s.eng.atReset }

end Sys2Proof.Machine
end

