-- ==== Sys2Proof/Machine/Dispatch.lean ====
section
/-! DEFINITION. exec: every command's meaning, one arm for each constructor of Instr. -/

namespace Sys2Proof.Machine

def exec (i : Instr) (s : State) : Host.Outcome State Fault Refusal :=
  match i with
  | .signalLoss f => Sys2Proof.Machine.execSignalLoss f s
  | .signalReturn f => Sys2Proof.Machine.execSignalReturn f s
  | .frameHeaderStart f => Sys2Proof.Machine.execFrameHeaderStart f s
  | .frameHeader f chars => Sys2Proof.Machine.execFrameHeader f chars s
  | .lineMarker f chars => Sys2Proof.Machine.execLineMarker f chars s
  | .sampleData f chars => Sys2Proof.Machine.execSampleData f chars s
  | .lineEnd f => Sys2Proof.Machine.execLineEnd f s
  | .metadataPacket f chars => Sys2Proof.Machine.execMetadataPacket f chars s
  | .lossDeadlineExpiry f => Sys2Proof.Machine.execLossDeadlineExpiry f s
  | .refPulseEdge => Sys2Proof.Machine.execRefPulseEdge s
  | .timeLoadWaitExpiry => Sys2Proof.Machine.execTimeLoadWaitExpiry s
  | .readCompletion c => Sys2Proof.Machine.execReadCompletion c s
  | .readTimeout => Sys2Proof.Machine.execReadTimeout s
  | .linkBurstComplete => Sys2Proof.Machine.execLinkBurstComplete s
  | .browseBandComplete => Sys2Proof.Machine.execBrowseBandComplete s
  | .load mask => Sys2Proof.Machine.execLoad mask s
  | .loadCommon mask => Sys2Proof.Machine.execLoadCommon mask s
  | .arm mask => Sys2Proof.Machine.execArm mask s
  | .stop mask => Sys2Proof.Machine.execStop mask s
  | .halt mask => Sys2Proof.Machine.execHalt mask s
  | .abort mask => Sys2Proof.Machine.execAbort mask s
  | .refill mask => Sys2Proof.Machine.execRefill mask s
  | .feedReset mask => Sys2Proof.Machine.execFeedReset mask s
  | .start mask => Sys2Proof.Machine.execStart mask s
  | .standby mask => Sys2Proof.Machine.execStandby mask s
  | .timeLoad mask => Sys2Proof.Machine.execTimeLoad mask s
  | .attentionIgnored word => Sys2Proof.Machine.execAttentionIgnored word s
  | .noticeWrite word => Sys2Proof.Machine.execNoticeWrite word s
  | .noticeMaskWrite word => Sys2Proof.Machine.execNoticeMaskWrite word s
  | .partStatusWrite word => Sys2Proof.Machine.execPartStatusWrite word s
  | .pageBaseWrite high word => Sys2Proof.Machine.execPageBaseWrite high word s
  | .refCountLowRead => Sys2Proof.Machine.execRefCountLowRead s
  | .ignoredRegisterWrite offset word => Sys2Proof.Machine.execIgnoredRegisterWrite offset word s
  | .powerOnReset => Sys2Proof.Machine.execPowerOnReset s
  | .hostLinkReset => Sys2Proof.Machine.execHostLinkReset s

end Sys2Proof.Machine
end

