-- ==== Sys2Proof/Safety.lean ====
section
/-! DEFINITION. The states and properties that statements speak of: when the Attention Unit and the other blocks have
nothing to do but wait, and the invariants of the feeds, of the staging pool and of card DRAM. -/

namespace Sys2Proof.Machine

/-! ## States in which blocks wait -/

/-- The Attention Unit has nothing to serve now: a request is in service, or none waits; and no REFILL is in hand. -/
def Attention.quiet (u : Attention) : Bool :=
  (u.service.isSome || (u.global.isNone && u.nextFeed.isNone)) &&
    (List.finRange 16).all fun f => u.pending[f] != some ⟨.refill, true⟩

/-- The Attention Unit has no request at all: none waits, none is in hand and none is in service. -/
def Attention.clear (u : Attention) : Bool :=
  u.service.isNone && u.global.isNone && (List.finRange 16).all fun f => u.pending[f].isNone

/-- The Essence Mover waits: it is MOVING, or its check waits for an entry. -/
def Mover.waits (m : Mover) : Bool :=
  match m.state with
  | .moving _ _ | .checking _ .waiting => true
  | .idle | .checking _ .evaluate => false

/-- The Browse Reducer waits: it has a frame in reduction, or its check waits for an entry. -/
def Reducer.waits (r : Reducer) : Bool :=
  match r.check with
  | some (_, .waiting) => true
  | some (_, .evaluate) => false
  | none => r.frame.isSome

/-- The Index Writer waits: it has a record in hand that waits for the link or for an entry. -/
def Writer.waits (w : Writer) : Bool :=
  match w.inHand with
  | some (_, .asking) | some (_, .check .waiting) => true
  | some (_, .check .evaluate) | none => false

/-- The part at work: the link is busy with a burst, and every block waits for the link or for a read. -/
def Engine.busyWaiting (e : Engine) : Bool :=
  e.arbiter.busy.isSome && e.mover.waits && e.reducer.waits && e.writer.waits &&
    e.takes.all fun t => t.refeed != some .evaluate

/-! ## Rest -/

/-- No act is left: every block has done what the commands so far give rise to. -/
def State.atRest (s : State) : Bool := s.unitStep.isNone

/-- The link is busy with a burst, so nothing asked now is granted in the same step. -/
def State.linkBusy (s : State) : Bool := s.eng.arbiter.busy.isSome

/-- No feed but `f` has a request, and no global request waits. -/
def Attention.onlyFeed (f : FeedId) (u : Attention) : Bool :=
  u.global.isNone && (List.finRange 16).all fun g => g == f || u.pending[g].isNone

/-- The feed mask that names feed `f` alone. -/
def maskOf (f : FeedId) : BitVec 16 := BitVec.twoPow 16 f.val

/-! ## The feeds' invariant (R7, R10, R19, R21, R22, R24, R28) -/

/-- No count of a drop tally exceeds 65,535 (R10). -/
def Tally.bounded (t : Tally) : Prop :=
  t.overrun ≤ 65535 ∧ t.mismatch ≤ 65535 ∧ t.broken ≤ 65535 ∧ t.emptyFrame ≤ 65535

/-- The Field Metadata Record holds at most eight items, with ascending tags from 1 on (R19). -/
def metadataGood (items : List Item) : Prop :=
  items.length ≤ 8 ∧ (items.map (·.tag)).Pairwise (· < ·) ∧ ∀ i ∈ items, i.tag ≠ 0

/-- An OFF feed: its link reports DARK, and nothing of a line, a header, a candidate, a mark or pending settings is
held (R22, R24). -/
def Receiver.off (r : Receiver) : Prop :=
  r.link = .dark ∧ r.candidate = false ∧ r.hasLocked = false ∧ r.relock = none ∧ r.waiting = none ∧
    r.inHeader = false ∧ r.line = .empty

/-- A feed's receiver and timer agree with each other and keep their bounds. -/
def feedGood (r : Receiver) (t : FeedTimer) : Prop :=
  (r.enabled = false → r.off ∧ t.history = [] ∧ t.deadline = none) ∧
    (r.enabled = true → r.active.isSome = true ∧ (r.link = .dark ↔ r.signal = false)) ∧
    (r.link = .locked → r.hasLocked = true) ∧
    (r.candidate = true → r.link = .seeking) ∧
    r.tally.bounded ∧ metadataGood r.metadata ∧ t.history.length ≤ 9

/-- Every feed is good. -/
def Front.feedsGood (x : Front) : Prop := ∀ f : FeedId, feedGood x.receivers[f] x.timers[f]

/-! ## The pool's invariant (R53, R54) -/

/-- A slot is held by feed `f`. -/
def Engine.heldBy (e : Engine) (f : FeedId) (i : SlotId) : Bool := e.slots[i].any fun s => s.feed == f

/-- The held lists name every slot that is not FREE, each once, under its own feed. -/
def Engine.poolGood (e : Engine) : Prop :=
  ∀ f : FeedId, (e.held[f]).Nodup ∧ ∀ i : SlotId, i ∈ e.held[f] ↔ e.heldBy f i = true

/-! ## A feed's lane -/

/-- The lane commands of a feed. -/
def laneOf : Instr → Option FeedId
  | .signalLoss f | .signalReturn f | .frameHeaderStart f | .frameHeader f _ | .lineMarker f _ | .sampleData f _
  | .lineEnd f | .metadataPacket f _ | .lossDeadlineExpiry f => some f
  | .refPulseEdge | .timeLoadWaitExpiry | .readCompletion _ | .readTimeout | .linkBurstComplete | .browseBandComplete
  | .load _ | .loadCommon _ | .arm _ | .stop _ | .halt _ | .abort _ | .refill _ | .feedReset _ | .start _ | .standby _
  | .timeLoad _ | .attentionIgnored _ | .noticeWrite _ | .noticeMaskWrite _ | .partStatusWrite _ | .pageBaseWrite _ _
  | .refCountLowRead | .ignoredRegisterWrite _ _ | .powerOnReset | .hostLinkReset => none

end Sys2Proof.Machine
end

