-- ==== Sys2Proof/Certificates/Slice0/Obligations.lean ====
section
/-! DEFINITION. The statements for the provers. A hypothesis `atRest` says that no act is left from earlier commands;
`linkBusy` says that the link sends a burst, so that nothing asked is granted within the same step; `busyWaiting` says that
every block waits for the link or for a read; `quiet` and `clear` say what the Attention Unit has to do. -/

open Sys2Proof Sys2Proof.Machine

/-! ## The queue and the clock -/

/-- A step takes the command at the front of the queue and runs it on the state with the queue's rest. -/
def Obligations.StepRunsFrontCommand : Prop :=
  ∀ (c : Instr) (rest : List Instr) (s : State), s.pending = c :: rest → step s = exec c { s with pending := rest }

/-- Every command completes in every state, and leaves the queue to the step. -/
def Obligations.EveryCommandCompletes : Prop :=
  ∀ (c : Instr) (s : State), ∃ t, exec c s = .next t ∧ t.pending = s.pending

/-- The idle step is one reference tick (the model's choice, log entry 1): the Reference Count advances by one, modulo
2^48, in every state. With nothing due and nothing left to do, it takes one tick off every remaining duration and changes
nothing else. -/
def Obligations.IdleStepTicks : Prop :=
  ∀ s : State, s.pending = [] →
    (∃ t, step s = .next t ∧ t.pending = [] ∧ t.front.refCount = s.front.refCount + 1) ∧
    (s.atRest = true → (∀ f : FeedId, s.front.timers[f].deadline ≠ some 0) →
      (∀ l, s.front.pendingLoad = some l → l.wait ≠ 0) → (∀ o, s.eng.port.outstanding = some o → o.remaining ≠ 0) →
      step s = .next { s with
        front := { s.front with
          refCount := s.front.refCount + 1
          pendingLoad := s.front.pendingLoad.map fun l => { l with wait := l.wait - 1 }
          timers := s.front.timers.map fun k => { k with deadline := k.deadline.map fun d => d - 1 } }
        eng := { s.eng with port := { s.eng.port with
          outstanding := s.eng.port.outstanding.map fun o => { o with remaining := o.remaining - 1 } } } })

/-! ## Reset -/

/-- What the spec gives for reset: the register words the host reads, every feed OFF and DARK with nothing held, every
slot FREE, no take, no request, an idle link and empty notices. -/
def Obligations.ResetStateHolds : Prop :=
  (registerWord State.reset 0x00 = 0 ∧ registerWord State.reset 0x04 = 0 ∧ registerWord State.reset 0x08 = 0 ∧
    registerWord State.reset 0x0C = 0 ∧ registerWord State.reset 0x10 = 0 ∧ registerWord State.reset 0x14 = 0x100 ∧
    registerWord State.reset 0x18 = 0 ∧ registerWord State.reset 0x1C = 0) ∧
  (∀ f : FeedId, State.reset.front.receivers[f].enabled = false ∧ State.reset.front.receivers[f].link = .dark ∧
    State.reset.front.receivers[f].candidate = false ∧ State.reset.front.receivers[f].hasLocked = false ∧
    State.reset.front.receivers[f].relock = none ∧ State.reset.front.receivers[f].active = none ∧
    State.reset.front.receivers[f].waiting = none ∧ State.reset.front.receivers[f].line = .empty ∧
    State.reset.front.receivers[f].metadata = [] ∧ State.reset.front.receivers[f].changed = [] ∧
    State.reset.front.receivers[f].tally = ⟨0, 0, 0, 0⟩ ∧ State.reset.front.receivers[f].expected = none ∧
    State.reset.front.timers[f] = ⟨[], none, false, none⟩ ∧ State.reset.front.reduce[f] = none ∧
    State.reset.front.attention.pending[f] = none ∧ State.reset.front.attention.answers[f].taken = 0 ∧
    State.reset.eng.held[f] = [] ∧ State.reset.eng.opened[f] = none ∧ State.reset.eng.board[f].committed = 0 ∧
    State.reset.eng.notices.causes[f] = 0) ∧
  (∀ i : SlotId, State.reset.eng.slots[i] = none) ∧
  State.reset.front.attention.part = .standby ∧ State.reset.front.attention.global = none ∧
  State.reset.front.attention.service = none ∧ State.reset.front.attention.lastServed = none ∧
  State.reset.front.attention.answer.taken = 0 ∧ State.reset.front.pendingLoad = none ∧ State.reset.eng.takes = [] ∧
  State.reset.eng.mover = ⟨.idle, none⟩ ∧ State.reset.eng.reducer = ⟨none, none, none, none⟩ ∧
  State.reset.eng.writer = ⟨none, none⟩ ∧ State.reset.eng.port.writes = [] ∧
  State.reset.eng.port.reads = [] ∧ State.reset.eng.port.outstanding = none ∧
  State.reset.eng.arbiter = ⟨none, .none⟩ ∧ State.reset.eng.notices.globalMark = false ∧
  State.reset.eng.notices.messageOwed = false

/-- The invariants hold after reset. -/
def Obligations.ResetMeetsInvariants : Prop :=
  State.reset.front.dram.wf ∧ State.reset.front.feedsGood ∧ State.reset.eng.poolGood

/-- POWER_ON_RESET and HOST_LINK_RESET: every block takes its reset state, and card DRAM keeps its contents. A host-link
reset keeps the count; at power-on it becomes 0. The model's own, not the spec's, are these clauses: the queue keeps its
commands (log entry 17); no signal is present after power-on, and a host-link reset keeps the lanes' signals (log entry 6);
what was delivered to the host stays delivered at power-on as R97 and R150 have it for a host-link reset (log entry 23);
the numbers of issued reads go on (log entry 36). -/
def Obligations.ResetCommandsResult : Prop :=
  ∀ (c : Instr) (s : State), c = .powerOnReset ∨ c = .hostLinkReset →
    ∃ t, exec c s = .next t ∧ t.pending = s.pending ∧
      t.eng = { Engine.reset with port := { Engine.reset.port with issued := s.eng.port.issued } } ∧
      t.front.refCount = (if c = .powerOnReset then 0 else s.front.refCount) ∧ t.front.refLatch = 0 ∧
      t.front.pendingLoad = none ∧ t.front.pageBase = 0 ∧ t.front.noticeMask = 0 ∧
      t.front.flags = ⟨true, false, false, false⟩ ∧ t.front.attention = Attention.reset ∧
      (∀ f : FeedId, t.front.receivers[f] =
          { Receiver.reset with signal := c = .hostLinkReset && s.front.receivers[f].signal } ∧
        t.front.timers[f] = FeedTimer.reset ∧ t.front.reduce[f] = none) ∧
      t.front.dram = s.front.dram ∧ s.front.delivered <+: t.front.delivered

/-! ## The register window -/

/-- REF_COUNT_LOW_READ: the read returns bits 0 to 31 and latches bits 32 to 47, so that the latch with the word is the
count at the read; nothing else changes. -/
def Obligations.RefCountLowReadResult : Prop :=
  ∀ s : State, ∃ t, exec .refCountLowRead s = .next t ∧ t.front.refLatch ++ t.front.readData = s.front.refCount ∧
    t.front.refCount = s.front.refCount ∧ registerWord t 0x1C = (s.front.refCount >>> 32).setWidth 32 ∧
    (s.atRest = true → t = { s with front := { s.front with readData := t.front.readData, refLatch := t.front.refLatch } })

/-- Commands that find nothing to act on change nothing: a write where no register takes writes, a timeout or a completion
with no outstanding read, a completion that answers another read than the outstanding one (one that has ended, or that a
reset discarded; the number that tells it is the model's, log entry 36), a burst's completion on a free link, an edge or a
wait's end with no pending load. -/
def Obligations.NothingToActOn : Prop :=
  ∀ s : State, s.atRest = true →
    (∀ offset word, exec (.ignoredRegisterWrite offset word) s = .next s) ∧
    (s.eng.port.outstanding = none → exec .readTimeout s = .next s ∧ ∀ c, exec (.readCompletion c) s = .next s) ∧
    (∀ o, s.eng.port.outstanding = some o → ∀ c : Completion, c.read ≠ o.number → exec (.readCompletion c) s = .next s) ∧
    (s.eng.arbiter.busy = none → exec .linkBurstComplete s = .next s) ∧
    (s.front.pendingLoad = none → exec .refPulseEdge s = .next s ∧ exec .timeLoadWaitExpiry s = .next s)

/-- PAGE_BASE_WRITE: in STANDBY with an empty write list the word is replaced, and the registers read so; otherwise the
write is ignored. PART_STATUS_WRITE: a 1 clears RESET_SEEN, LINK_FAULT and ATTENTION_IGNORED; PAGE_FAULT and the
part state take no writes; writes of 0 change nothing. -/
def Obligations.PageBaseAndStatusWrites : Prop :=
  (∀ (high : Bool) (word : BitVec 32) (s : State), s.atRest = true →
     (s.front.attention.part = .standby ∧ s.eng.port.writes = [] →
       ∃ t, exec (.pageBaseWrite high word) s = .next t ∧
         t = { s with front := { s.front with pageBase := t.front.pageBase } } ∧
         registerWord t 0x00 = (if high then registerWord s 0x00 else word) ∧
         registerWord t 0x04 = (if high then word else registerWord s 0x04)) ∧
     (¬(s.front.attention.part = .standby ∧ s.eng.port.writes = []) → exec (.pageBaseWrite high word) s = .next s)) ∧
  (∀ (word : BitVec 32) (s : State), s.atRest = true →
     exec (.partStatusWrite word) s = .next { s with front := { s.front with flags :=
       { resetSeen := s.front.flags.resetSeen && !word.getLsbD 8
         linkFault := s.front.flags.linkFault && !word.getLsbD 9
         pageFault := s.front.flags.pageFault
         attentionIgnored := s.front.flags.attentionIgnored && !word.getLsbD 11 } } })

/-- NOTICE_WRITE: a 1 in feed bit `f` removes the event causes (bits 0 to 5) from feed `f`'s set, a 1 in the global bit
clears the global mark, bits written as 0 leave theirs as they are, and no interrupt message is asked. Nothing of
the front, the takes, the slots or the places changes. NOTICE_MASK_WRITE: the write replaces the 17 bits; when the
masked value goes from zero to nonzero, one message is asked behind the writes of the list in RUNNING, and the
message-owed mark is set in the other part states; a masked value of zero clears that mark. -/
def Obligations.NoticeRegisterWrites : Prop :=
  (∀ (word : BitVec 32) (s : State), s.atRest = true → s.linkBusy = true →
     ∃ t, exec (.noticeWrite word) s = .next t ∧
       (∀ f : FeedId, t.eng.notices.causes[f] =
         if word.getLsbD f.val then s.eng.notices.causes[f] &&& 0x1C0 else s.eng.notices.causes[f]) ∧
       t.eng.notices.globalMark = (s.eng.notices.globalMark && !word.getLsbD 16) ∧
       t.eng.port.writes.count .message = s.eng.port.writes.count .message ∧
       t.front = s.front ∧ t.pending = s.pending ∧ t.eng.takes = s.eng.takes ∧ t.eng.slots = s.eng.slots ∧
       t.eng.held = s.eng.held ∧ t.eng.places = s.eng.places ∧ t.eng.port.reads = s.eng.port.reads ∧
       t.eng.arbiter = s.eng.arbiter) ∧
  (∀ (word : BitVec 32) (s : State), s.atRest = true → s.linkBusy = true →
     let rises := (s.eng.notices.word &&& s.front.noticeMask == 0) && (s.eng.notices.word &&& word.setWidth 17 != 0)
     ∃ t, exec (.noticeMaskWrite word) s = .next t ∧
       t.front = { s.front with noticeMask := word.setWidth 17 } ∧
       t.eng.port.writes = s.eng.port.writes ++
         (if rises && s.front.attention.part == .running then [WriteRequest.message] else []) ∧
       t.eng.notices.messageOwed = ((s.eng.notices.word &&& word.setWidth 17 != 0) &&
         (s.eng.notices.messageOwed || (rises && s.front.attention.part != .running))) ∧
       t.eng.notices.causes = s.eng.notices.causes ∧ t.eng.notices.globalMark = s.eng.notices.globalMark ∧
       t.pending = s.pending ∧ t.eng.takes = s.eng.takes ∧ t.eng.slots = s.eng.slots)

/-! ## Lanes: symbols and link state -/

/-- The Feed Receiver discards every symbol of a feed that is OFF or whose signal is absent. -/
def Obligations.SymbolsDiscarded : Prop :=
  ∀ (f : FeedId) (chars : List Byte) (s : State), s.atRest = true →
    (s.front.receivers[f].enabled = false ∨ s.front.receivers[f].signal = false) →
    exec (.frameHeaderStart f) s = .next s ∧ exec (.frameHeader f chars) s = .next s ∧
      exec (.lineMarker f chars) s = .next s ∧ exec (.sampleData f chars) s = .next s ∧
      exec (.lineEnd f) s = .next s ∧ exec (.metadataPacket f chars) s = .next s

/-- SIGNAL_RETURN: an enabled DARK feed goes to SEEKING with the candidate absent, and the write of its link state is
asked; on any other feed the signal is observed and nothing else changes. -/
def Obligations.SignalReturnResult : Prop :=
  ∀ (f : FeedId) (s : State), s.atRest = true → s.linkBusy = true →
    (s.front.receivers[f].enabled = true → s.front.receivers[f].link = .dark →
      exec (.signalReturn f) s = .next
        ((s.onReceiver f fun r => { r with signal := true, candidate := false, link := .seeking }).act
          fun _ e => e.ask (.link f))) ∧
    (¬(s.front.receivers[f].enabled = true ∧ s.front.receivers[f].link = .dark) →
      exec (.signalReturn f) s = .next (s.onReceiver f fun r => { r with signal := true }))

/-- A loss on a link that is not LOCKED. SIGNAL_LOSS of a SEEKING link: DARK, the candidate absent, the line in progress
discarded, a header in progress broken (counted while a take records), and no link-loss event. SIGNAL_LOSS of a feed
whose symbols are not taken: the signal alone. LOSS_DEADLINE_EXPIRY: a SEEKING link loses its candidate; a DARK one
loses nothing. That the expiry acts when the deadline stands at 0 is the model's choice (log entry 3). -/
def Obligations.UnlockedLossResult : Prop :=
  ∀ (f : FeedId) (s : State), s.atRest = true → s.linkBusy = true →
    (s.front.receivers[f].enabled = true → s.front.receivers[f].signal = true → s.front.receivers[f].link = .seeking →
      exec (.signalLoss f) s = .next ((s.onReceiver f fun r => { r with
          signal := false, link := .dark, candidate := false, line := .empty, inHeader := false
          tally := if r.inHeader && s.recording f then { r.tally with broken := bump r.tally.broken } else r.tally }).act
        fun _ e => e.ask (.link f))) ∧
    (¬(s.front.receivers[f].enabled = true ∧ s.front.receivers[f].signal = true) →
      exec (.signalLoss f) s = .next (s.onReceiver f fun r => { r with signal := false })) ∧
    (s.front.timers[f].deadline = some 0 → s.front.receivers[f].link = .seeking →
      exec (.lossDeadlineExpiry f) s = .next
        ((s.onFront fun x => x.updTimer f fun k => { k with deadline := none }).onReceiver f
          fun r => { r with candidate := false })) ∧
    (s.front.timers[f].deadline = some 0 → s.front.receivers[f].link = .dark →
      exec (.lossDeadlineExpiry f) s = .next (s.onFront fun x => x.updTimer f fun k => { k with deadline := none }))

/-- A LOCKED link leaves LOCKED: by SIGNAL_LOSS for DARK, by LOSS_DEADLINE_EXPIRY for SEEKING. The candidate is absent,
the line in progress discarded, the feed has no open frame, no other feed's receiver changes, and the LOST cause is held
if the has-locked mark is set. With no frame open, a RECORDING Live take of the feed with room in the record budget
gets LINK_LOSS with the count and the cause. -/
def Obligations.LeavingLockedResult : Prop :=
  ∀ (f : FeedId) (c : Instr) (l : Link) (cause : LossCause) (s : State),
    (c = .signalLoss f ∧ l = .dark ∧ cause = .dark ∨
      c = .lossDeadlineExpiry f ∧ l = .seeking ∧ cause = .deadline ∧ s.front.timers[f].deadline = some 0) →
    s.front.receivers[f].enabled = true → s.front.receivers[f].signal = true → s.front.receivers[f].link = .locked →
    s.front.receivers[f].waiting = none → s.front.attention.quiet = true → s.eng.busyWaiting = true →
    ∃ t, exec c s = .next t ∧ t.front.receivers[f].link = l ∧ t.front.receivers[f].candidate = false ∧
      t.front.receivers[f].line = .empty ∧ t.eng.opened[f] = none ∧ t.front.refCount = s.front.refCount ∧
      (∀ g : FeedId, g ≠ f → t.front.receivers[g] = s.front.receivers[g] ∧ t.front.timers[g] = s.front.timers[g]) ∧
      (s.front.receivers[f].hasLocked = true → t.eng.notices.causes[f] &&& 0x040 = 0x040) ∧
      (∀ k, s.eng.recordingTake f = some k → s.eng.opened[f] = none → s.eng.budget k.feed < 488 →
        t.eng.take? k.id =
          some { k with queue := joinQueue k.queue ⟨s.eng.nextSeq, .linkLoss s.front.refCount cause⟩ })

/-- FRAME_HEADER_START closes an open frame; the feed then has none. With lines received, the missing ones are concealed and
the slot is READY with its flags and its concealed count. With browse disabled its outcome is DISABLED; with browse enabled
and the outcome open it joins the feed's waiting frames: below the lag limit no other frame changes, and at it the oldest
waiting frame becomes SKIPPED_LATE first (a room check that waits for a frame to be skipped is left out). That a frame of
such a take whose outcome is decided while it is FILLING keeps it and has no frame skipped is the model's choice (log
entry 34). With no line received the frame is an EMPTY_FRAME: counted in the tally, its slot FREE, its placeholder removed
and its position taken back. -/
def Obligations.FrameHeaderStartClosesFrame : Prop :=
  ∀ (f : FeedId) (o : OpenFrame) (slot : Slot) (k : Take) (s : State),
    s.front.receivers[f].enabled = true → s.front.receivers[f].signal = true → s.front.receivers[f].inHeader = false →
    s.eng.opened[f] = some o → s.eng.slots[o.slot] = some slot → slot.state = .filling →
    s.eng.take? slot.take = some k → s.front.attention.quiet = true → s.eng.busyWaiting = true →
    let joins := k.browseOn = true ∧ slot.browse = .undecided
    ∃ t, exec (.frameHeaderStart f) s = .next t ∧ t.eng.opened[f] = none ∧
      (o.received ≠ [] → (joins → ∀ j ∈ (s.eng.waiting f).take ((s.eng.waiting f).length + 1 - s.front.lag f),
          s.eng.reducer.check.map (·.1) ≠ some j) →
        t.eng.slots[o.slot] = some { slot with
          state := .ready
          padded := o.padded
          concealed := 0 < (missingLines (s.front.settings f).h o.received).length
          concealedCount := (missingLines (s.front.settings f).h o.received).length
          browse := if k.browseOn then slot.browse else .decided .disabled } ∧
        t.eng.held = s.eng.held ∧
        t.front.dram = s.front.dram.conceal o.slot (s.front.settings f).w (s.front.settings f).h o.received ∧
        t.front.receivers = (upd s.front.receivers f fun r => { r with line := .empty, inHeader := true }) ∧
        (¬joins ∨ (s.eng.waiting f).length < s.front.lag f →
          t.eng.takes = s.eng.takes ∧ ∀ i, i ≠ o.slot → t.eng.slots[i] = s.eng.slots[i]) ∧
        (joins → (s.eng.waiting f).length = s.front.lag f → (s.eng.held[f]).Nodup →
          ∀ j rest older, s.eng.waiting f = j :: rest → s.eng.held[f] = older ++ [o.slot] →
          t.eng.waiting f = rest ++ [o.slot] ∧ (t.eng.slots[j]).map (·.browse) = some (.decided .skippedLate) ∧
            ∀ i, i ≠ o.slot → i ≠ j → t.eng.slots[i] = s.eng.slots[i])) ∧
      (o.received = [] → t.eng.slots[o.slot] = none ∧ (∀ i, i ≠ o.slot → t.eng.slots[i] = s.eng.slots[i]) ∧
        (∀ g : FeedId, t.eng.held[g] = (s.eng.held[g]).filter fun i => i != o.slot) ∧
        t.eng.take? slot.take = some { k with
          queue := k.queue.filter fun r => !r.body.inSlot o.slot
          position := k.position - 1 } ∧
        (∀ n, n ≠ slot.take → t.eng.take? n = s.eng.take? n) ∧ t.front.dram = s.front.dram ∧
        t.front.receivers = upd s.front.receivers f fun r => { r with
          line := .empty, inHeader := true, tally := { r.tally with emptyFrame := bump r.tally.emptyFrame } })

/-- FRAME_HEADER_START on a feed whose symbols are taken and that has no open frame: the line in progress is cut off and
a header is in progress; a header that was in progress is broken, and counted while a take records. FRAME_HEADER
with a wrong check sum: the header is broken, counted while a take records; neither the link state nor the
candidate, and nothing else, changes. -/
def Obligations.FrameHeaderStartsOrBreaks : Prop :=
  (∀ (f : FeedId) (s : State), s.atRest = true → s.front.receivers[f].enabled = true →
     s.front.receivers[f].signal = true → s.eng.opened[f] = none →
     exec (.frameHeaderStart f) s = .next (s.onReceiver f fun r => { r with
       line := .empty, inHeader := true
       tally := if r.inHeader && s.recording f then { r.tally with broken := bump r.tally.broken } else r.tally })) ∧
  (∀ (f : FeedId) (chars : List Byte) (s : State), s.atRest = true → s.front.receivers[f].enabled = true →
     s.front.receivers[f].signal = true → s.front.receivers[f].inHeader = true → chars.length = 12 →
     fieldAt chars 10 2 ≠ (0xA5A5 + ((chars.take 10).map (·.toNat)).sum) % 65536 →
     exec (.frameHeader f chars) s = .next (s.onReceiver f fun r => { r with
       inHeader := false
       tally := if s.recording f then { r.tally with broken := bump r.tally.broken } else r.tally }))

/-- Settings that are pending while the link is LOCKED become active when the link leaves LOCKED, and at an accepted header
before that header is compared. A disabling block turns the feed OFF: DARK, with line, header, candidate, marks, timer and
LOST cause cleared; the header's frame is not admitted. Settings of another format empty the record, the changed set, the
tally, the expectation, the marks and the timer; at a header the link is SEEKING, and the header makes the candidate present
exactly when it matches them. Settings of the same format become the active settings, and the link and the record stay. The
reduction context follows the active settings. The model's choices are these: a disabling block is applied whatever takes the
feed has by then (log entry 14), and the expiry acts when the deadline stands at 0 (log entry 3). -/
def Obligations.PendingSettingsApplied : Prop :=
  ∀ (f : FeedId) (m : Settings) (b : Block) (s : State), s.front.receivers[f].enabled = true →
    s.front.receivers[f].signal = true → s.front.receivers[f].link = .locked → s.front.receivers[f].active = some m →
    s.front.receivers[f].waiting = some b → s.front.attention.quiet = true →
    let r := s.front.receivers[f]
    let differs (n : Settings) : Prop := n.framing ≠ m.framing ∨ n.rate ≠ m.rate ∨ n.w ≠ m.w ∨ n.h ≠ m.h
    (∀ (c : Instr) (l : Link), (c = .signalLoss f ∧ l = .dark ∨
        c = .lossDeadlineExpiry f ∧ l = .seeking ∧ s.front.timers[f].deadline = some 0) →
      let left : Receiver := { r with
        signal := l = .seeking, link := l, candidate := false, line := .empty, waiting := none
        inHeader := r.inHeader && l = .seeking }
      ∃ t, exec c s = .next t ∧ t.eng.opened[f] = none ∧
        (b = .disabling → t.front.timers[f] = ⟨[], none, false, none⟩ ∧ t.eng.notices.causes[f] &&& 0x040 = 0 ∧
          t.front.receivers[f] = { left with
            enabled := false, link := .dark, hasLocked := false, relock := none, inHeader := false
            tally := t.front.receivers[f].tally }) ∧
        (∀ n, b = .enabling n → t.front.reduce[f] = some n.reduceContext ∧
          (differs n → t.front.timers[f] = ⟨[], none, false, none⟩ ∧ t.eng.notices.causes[f] &&& 0x040 = 0 ∧
            t.front.receivers[f] = { left with
              hasLocked := false, relock := none, active := some n, metadata := [], changed := []
              tally := ⟨0, 0, 0, 0⟩, expected := none }) ∧
          (¬differs n → (r.hasLocked = true → t.eng.notices.causes[f] &&& 0x040 = 0x040) ∧
            t.front.receivers[f] = { left with active := some n, tally := t.front.receivers[f].tally }))) ∧
    (∀ chars : List Byte, r.inHeader = true → chars.length = 12 → headerGood chars = true →
      ∃ t, exec (.frameHeader f chars) s = .next t ∧
        (b = .disabling → t.front.timers[f] = ⟨[], none, false, none⟩ ∧
          t.front.receivers[f] = { r with
            inHeader := false, enabled := false, link := .dark, candidate := false, hasLocked := false, relock := none
            waiting := none, line := .empty } ∧
          (s.eng.busyWaiting = true → t.eng.takes = s.eng.takes ∧ t.eng.slots = s.eng.slots ∧
            t.eng.opened = s.eng.opened ∧ t.eng.port.reads = s.eng.port.reads)) ∧
        (∀ n, b = .enabling n → t.front.reduce[f] = some n.reduceContext ∧
          (differs n →
            let fits : Bool :=
              parseRate (fieldAt chars 0 1) = some n.rate ∧ fieldAt chars 2 2 = n.w ∧ fieldAt chars 4 2 = n.h
            let label := (parseHeader chars).label
            let day :=
              if (parseHeader chars).tcPresent = true ∧ n.rate.valid label = true then n.rate.dayNumber label else 0
            t.front.timers[f] = ⟨[s.front.refCount], none, false, some (n.lossWindow * n.rate.pnom)⟩ ∧
            t.front.receivers[f] = { r with
              inHeader := false, link := .seeking, candidate := fits, hasLocked := false, relock := none, active := some n
              waiting := none, metadata := [], changed := []
              tally := ⟨0, if !fits && (s.eng.recordingTake f).isSome then 1 else 0, 0, 0⟩
              expected := some ((day + 1) % n.rate.dayCount) }) ∧
          (¬differs n → t.front.timers[f].deadline = some (n.lossWindow * n.rate.pnom) ∧
            t.front.receivers[f].enabled = true ∧ t.front.receivers[f].link = .locked ∧
            t.front.receivers[f].active = some n ∧ t.front.receivers[f].waiting = none ∧
            t.front.receivers[f].metadata = r.metadata)))

/-- FRAME_HEADER accepted, without pending settings: the capture joins the history, which keeps its nine newest; a full
history gives the measured period and the cadence condition; the loss deadline is LossWindow × Pnom. The frame is placed at
its label's day number when the header carries a valid label, and otherwise by the flywheel: at the expected day number, or
at 0 with "first header"; the expected day number becomes the one after. Card DRAM, the clock and the other feeds stay. -/
def Obligations.FrameHeaderTimerResult : Prop :=
  ∀ (f : FeedId) (chars : List Byte) (n : Settings) (s : State), s.front.receivers[f].enabled = true →
    s.front.receivers[f].signal = true → s.front.receivers[f].inHeader = true → s.front.receivers[f].waiting = none →
    s.front.receivers[f].active = some n → chars.length = 12 → headerGood chars = true →
    s.front.attention.quiet = true →
    let old := s.front.timers[f]
    let history := (old.history ++ [s.front.refCount]).drop (old.history.length - 8)
    let label := (parseHeader chars).label
    let placed : Placed :=
      if (parseHeader chars).tcPresent = true ∧ n.rate.valid label = true then ⟨⟨label, n.rate.dayNumber label⟩, false⟩
      else match s.front.receivers[f].expected with
        | some day => ⟨⟨n.rate.label day, day⟩, true⟩
        | none => ⟨⟨⟨0, 0, 0, 0⟩, 0⟩, true⟩
    ∃ t, exec (.frameHeader f chars) s = .next t ∧ t.front.timers[f].history = history ∧
      t.front.timers[f].deadline = some (n.lossWindow * n.rate.pnom) ∧
      (history.length < 9 → t.front.timers[f].measured = old.measured ∧ t.front.timers[f].cadenceOff = old.cadenceOff) ∧
      (9 ≤ history.length → ∀ oldest ∈ history.head?,
        t.front.timers[f].measured = some ((s.front.refCount - oldest).toNat / 8) ∧
        t.front.timers[f].cadenceOff =
          decide (n.tolerance * n.rate.pnom < distance ((s.front.refCount - oldest).toNat / 8) n.rate.pnom * 10000)) ∧
      t.front.receivers[f].expected = some ((placed.tc.day + 1) % n.rate.dayCount) ∧
      t.front.receivers[f].inHeader = false ∧ t.front.dram = s.front.dram ∧ t.front.refCount = s.front.refCount ∧
      (∀ g : FeedId, g ≠ f → t.front.receivers[g] = s.front.receivers[g] ∧ t.front.timers[g] = s.front.timers[g])

/-- FRAME_HEADER on a SEEKING link, matching the active format: the link locks when the candidate is present and the
interval from the previous capture is in tolerance, with the relock mark set if the loss condition held; otherwise the
candidate becomes present and the link stays SEEKING. -/
def Obligations.FrameHeaderSeekingResult : Prop :=
  ∀ (f : FeedId) (chars : List Byte) (n : Settings) (s : State), s.front.receivers[f].enabled = true →
    s.front.receivers[f].signal = true → s.front.receivers[f].inHeader = true → s.front.receivers[f].waiting = none →
    s.front.receivers[f].active = some n → s.front.receivers[f].link = .seeking → chars.length = 12 →
    headerGood chars = true → parseRate (fieldAt chars 0 1) = some n.rate → fieldAt chars 2 2 = n.w →
    fieldAt chars 4 2 = n.h → s.eng.places[f].live = none → s.front.attention.quiet = true →
    let locks := s.front.receivers[f].candidate && s.front.timers[f].history.getLast?.any fun c =>
      decide (distance (s.front.refCount - c).toNat n.rate.pnom * 10000 ≤ n.tolerance * n.rate.pnom)
    ∃ t, exec (.frameHeader f chars) s = .next t ∧
      t.front.receivers[f].link = (if locks then .locked else .seeking) ∧
      t.front.receivers[f].candidate = !locks ∧
      t.front.receivers[f].hasLocked = (s.front.receivers[f].hasLocked || locks) ∧
      t.front.receivers[f].relock =
        (if locks && s.front.receivers[f].hasLocked then some s.front.refCount else s.front.receivers[f].relock) ∧
      t.front.receivers[f].tally = s.front.receivers[f].tally ∧
      t.front.receivers[f].metadata = s.front.receivers[f].metadata ∧
      t.front.receivers[f].changed = s.front.receivers[f].changed

/-- FRAME_HEADER that does not match the active format: not admitted; FORMAT_MISMATCH counted while a take records; the
link state stays, and a SEEKING link's candidate becomes absent. No take, slot, open frame or read changes (here while the
blocks wait). -/
def Obligations.FrameHeaderMismatchResult : Prop :=
  ∀ (f : FeedId) (chars : List Byte) (n : Settings) (s : State), s.front.receivers[f].enabled = true →
    s.front.receivers[f].signal = true → s.front.receivers[f].inHeader = true → s.front.receivers[f].waiting = none →
    s.front.receivers[f].active = some n → chars.length = 12 → headerGood chars = true →
    (parseRate (fieldAt chars 0 1) ≠ some n.rate ∨ fieldAt chars 2 2 ≠ n.w ∨ fieldAt chars 4 2 ≠ n.h) →
    s.front.attention.quiet = true →
    ∃ t, exec (.frameHeader f chars) s = .next t ∧ t.front.receivers[f] = { s.front.receivers[f] with
        inHeader := false
        expected := t.front.receivers[f].expected
        candidate := s.front.receivers[f].candidate && s.front.receivers[f].link != .seeking
        tally := if (s.eng.recordingTake f).isSome then
            { s.front.receivers[f].tally with mismatch := bump s.front.receivers[f].tally.mismatch }
          else s.front.receivers[f].tally } ∧
      (s.eng.busyWaiting = true → t.eng.takes = s.eng.takes ∧ t.eng.places = s.eng.places ∧ t.eng.slots = s.eng.slots ∧
        t.eng.held = s.eng.held ∧ t.eng.opened = s.eng.opened ∧ t.eng.port.reads = s.eng.port.reads)

/-- FRAME_HEADER that is admitted into a RECORDING take without a stop test to meet, while the feed is below its
ceiling and slot `i` is the FREE slot with the lowest number: the slot is granted, joins the held list and is opened, the
FRAME placeholder closes the take's queue at the take's position with the placed label (the header's, or the flywheel's with
TC_SUBSTITUTED), the position rises by one, and the Feed Receiver empties the tally, the changed set and the relock mark. -/
def Obligations.FrameHeaderSlottedResult : Prop :=
  ∀ (f : FeedId) (chars : List Byte) (n : Settings) (k : Take) (i : SlotId) (s : State),
    s.front.receivers[f].enabled = true → s.front.receivers[f].signal = true → s.front.receivers[f].inHeader = true →
    s.front.receivers[f].waiting = none → s.front.receivers[f].active = some n → s.front.receivers[f].link = .locked →
    chars.length = 12 → headerGood chars = true → parseRate (fieldAt chars 0 1) = some n.rate →
    fieldAt chars 2 2 = n.w → fieldAt chars 4 2 = n.h → s.eng.liveTake f = some k → k.state = .recording →
    k.feed = f → k.stopMode = .onRequest → s.eng.places[f].staged = none → s.eng.places[f].deferredStop = none →
    k.position < 2 ^ 32 - 1 → (∀ r ∈ k.queue, r.body ≠ .endRecord) → s.eng.held[f].length < n.ceiling →
    s.eng.slots[i] = none → (∀ j : SlotId, j < i → s.eng.slots[j] ≠ none) → s.front.attention.quiet = true →
    s.eng.busyWaiting = true →
    let label := (parseHeader chars).label
    let placed : Placed :=
      if (parseHeader chars).tcPresent = true ∧ n.rate.valid label = true then ⟨⟨label, n.rate.dayNumber label⟩, false⟩
      else match s.front.receivers[f].expected with
        | some day => ⟨⟨n.rate.label day, day⟩, true⟩
        | none => ⟨⟨⟨0, 0, 0, 0⟩, 0⟩, true⟩
    ∃ t, exec (.frameHeader f chars) s = .next t ∧
      t.eng.slots[i] = some ⟨.filling, f, k.id, k.position, false, false, 0, .unwritten, .undecided, none⟩ ∧
      (∀ j, j ≠ i → t.eng.slots[j] = s.eng.slots[j]) ∧ t.eng.held[f] = s.eng.held[f] ++ [i] ∧
      t.eng.opened[f] = some ⟨i, [], 0, false, n.topSkip, n.leftSkip⟩ ∧
      (∃ k' r, t.eng.take? k.id = some k' ∧ k'.position = k.position + 1 ∧ k'.lastDay = some placed.tc.day ∧
        k'.queue.getLast? = some r ∧
        r.body = .frame ⟨k.position, placed.tc, s.front.refCount, placed.substituted, i, none⟩) ∧
      t.front.receivers[f].tally = ⟨0, 0, 0, 0⟩ ∧ t.front.receivers[f].changed = [] ∧
      t.front.receivers[f].relock = none ∧ t.front.receivers[f].metadata = s.front.receivers[f].metadata ∧
      t.front.dram = s.front.dram

/-- FRAME_HEADER that is admitted into such a take while the feed is at its ceiling or no slot is FREE: an OVERRUN, counted
in the tally; no slot, held list, open frame or take changes, and the changed set and the relock mark are kept. -/
def Obligations.FrameHeaderOverrunResult : Prop :=
  ∀ (f : FeedId) (chars : List Byte) (n : Settings) (k : Take) (s : State),
    s.front.receivers[f].enabled = true → s.front.receivers[f].signal = true → s.front.receivers[f].inHeader = true →
    s.front.receivers[f].waiting = none → s.front.receivers[f].active = some n → s.front.receivers[f].link = .locked →
    chars.length = 12 → headerGood chars = true → parseRate (fieldAt chars 0 1) = some n.rate →
    fieldAt chars 2 2 = n.w → fieldAt chars 4 2 = n.h → s.eng.liveTake f = some k → k.state = .recording →
    k.stopMode = .onRequest → s.eng.places[f].staged = none → s.eng.places[f].deferredStop = none →
    k.position < 2 ^ 32 - 1 → (n.ceiling ≤ s.eng.held[f].length ∨ ∀ j : SlotId, s.eng.slots[j] ≠ none) →
    s.front.attention.quiet = true → s.eng.busyWaiting = true →
    ∃ t, exec (.frameHeader f chars) s = .next t ∧ t.eng.slots = s.eng.slots ∧ t.eng.held = s.eng.held ∧
      t.eng.opened = s.eng.opened ∧ t.eng.takes = s.eng.takes ∧ t.eng.places = s.eng.places ∧
      t.front.receivers[f] = { s.front.receivers[f] with
        inHeader := false
        expected := t.front.receivers[f].expected
        tally := { s.front.receivers[f].tally with overrun := bump s.front.receivers[f].tally.overrun } } ∧
      t.front.dram = s.front.dram

/-- FRAME_HEADER that is admitted while the Live take is ARMED. IMMEDIATE, AT_TIME from the start parameter on and
AT_TIMECODE from its day number on hold; the take then begins on the frame: RECORDING, with the frame's capture and placed
label as begin frame and start capture, the active geometry, START at the head of its queue, and TAKE_STARTED raised. The
frame is its position 0 when a slot is granted, and an OVERRUN otherwise. When no start condition holds the frame is outside:
takes, slots, open frame and the receiver's tally, marks and record stay. -/
def Obligations.FrameHeaderBeginsTake : Prop :=
  ∀ (f : FeedId) (chars : List Byte) (n : Settings) (k : Take) (s : State),
    s.front.receivers[f].enabled = true → s.front.receivers[f].signal = true → s.front.receivers[f].inHeader = true →
    s.front.receivers[f].waiting = none → s.front.receivers[f].active = some n → s.front.receivers[f].link = .locked →
    chars.length = 12 → headerGood chars = true → parseRate (fieldAt chars 0 1) = some n.rate →
    fieldAt chars 2 2 = n.w → fieldAt chars 4 2 = n.h → s.eng.liveTake f = some k → k.state = .armed → k.feed = f →
    k.position = 0 → k.queue = [] → (k.stopMode = .afterFrames → 2 ≤ (k.stopParam.setWidth 32).toNat) →
    s.front.attention.quiet = true → s.eng.busyWaiting = true →
    let r := s.front.receivers[f]
    let label := (parseHeader chars).label
    let placed : Placed :=
      if (parseHeader chars).tcPresent = true ∧ n.rate.valid label = true then ⟨⟨label, n.rate.dayNumber label⟩, false⟩
      else match r.expected with
        | some day => ⟨⟨n.rate.label day, day⟩, true⟩
        | none => ⟨⟨⟨0, 0, 0, 0⟩, 0⟩, true⟩
    let begins : Prop := k.startMode = .immediate ∨
      k.startMode = .atTime ∧ (s.front.refCount - k.startParam.setWidth 48).toNat < 2 ^ 47 ∨
      k.startMode = .atTimecode ∧
        n.rate.atOrAfter ((k.startParam.setWidth 32).toNat % n.rate.dayCount) placed.tc.day = true
    let geometry : Geometry := ⟨n.w, n.h, n.rate, n.factor⟩
    (begins → ∃ t k', exec (.frameHeader f chars) s = .next t ∧ t.eng.take? k.id = some k' ∧ k'.state = .recording ∧
      k'.startCapture = some s.front.refCount ∧ k'.beginFrame = some (s.front.refCount, placed.tc) ∧
      k'.geom = some geometry ∧
      k'.queue.head?.map (·.body) = some (.start ⟨k.label, s.front.refCount, placed.tc, geometry⟩) ∧
      t.eng.notices.causes[f] &&& 0x001 = 0x001 ∧ t.eng.places = s.eng.places ∧
      (∀ i : SlotId, s.eng.held[f].length < n.ceiling → s.eng.slots[i] = none →
        (∀ j : SlotId, j < i → s.eng.slots[j] ≠ none) →
        t.eng.slots[i] = some ⟨.filling, f, k.id, 0, false, false, 0, .unwritten, .undecided, none⟩ ∧
        (∀ j, j ≠ i → t.eng.slots[j] = s.eng.slots[j]) ∧ t.eng.held[f] = s.eng.held[f] ++ [i] ∧
        t.eng.opened[f] = some ⟨i, [], 0, false, n.topSkip, n.leftSkip⟩ ∧ k'.position = 1 ∧
        k'.lastDay = some placed.tc.day ∧ k'.queue.getLast?.map (·.body) =
          some (.frame ⟨0, placed.tc, s.front.refCount, placed.substituted, i, none⟩)) ∧
      (n.ceiling ≤ s.eng.held[f].length ∨ (∀ j : SlotId, s.eng.slots[j] ≠ none) →
        k'.position = 0 ∧ t.eng.slots = s.eng.slots ∧ t.eng.held = s.eng.held ∧ t.eng.opened = s.eng.opened ∧
        t.front.receivers[f].tally = { r.tally with overrun := bump r.tally.overrun })) ∧
    (¬begins → ∃ t, exec (.frameHeader f chars) s = .next t ∧ t.eng.takes = s.eng.takes ∧
      t.eng.places = s.eng.places ∧ t.eng.slots = s.eng.slots ∧ t.eng.held = s.eng.held ∧ t.eng.opened = s.eng.opened ∧
      t.front.receivers[f] = { r with inHeader := false, expected := t.front.receivers[f].expected })

/-- Membership of an admitted frame `a` while the Live take `k` is RECORDING with no stop deferred. An AT_TIME or AT_TIMECODE
stop that holds closes the take with the frame excluded, and so does a Staged take whose start holds, with reason SPLIT when
`k`'s own stop does not hold; the Staged take begins on the frame, as a CONTIGUOUS one does after a time stop. Another Staged
take becomes Live ARMED, and the frame is outside. With four Closing takes the stop is deferred, and the frame belongs to
`k`. An AFTER_FRAMES take closes FRAME_COUNT right after the frame slotted at position N − 1, or is deferred. Otherwise the
frame belongs to `k`, and nothing closes. -/
def Obligations.RecordingTakeMembership : Prop :=
  ∀ (x : Front) (f : FeedId) (a : Admission) (k : Take) (e : Engine), e.liveTake f = some k → k.state = .recording →
    e.places[f].deferredStop = none → k.position < 2 ^ 32 - 1 → (∀ g, e.stagedTake f = some g → g.id ≠ k.id) →
    let n := x.settings f
    let time (param : BitVec 64) : Prop := (a.capture - param.setWidth 48).toNat < 2 ^ 47
    let timecode (param : BitVec 64) : Prop :=
      n.rate.atOrAfter ((param.setWidth 32).toNat % n.rate.dayCount) a.placed.tc.day = true
    let stops (why : CloseReason) : Prop := k.stopMode = .atTime ∧ time k.stopParam ∧ why = .stopTime ∨
      k.stopMode = .atTimecode ∧ timecode k.stopParam ∧ why = .stopTimecode
    let starts (g : Take) : Prop := e.stagedTake f = some g ∧ (g.startMode = .immediate ∨
      g.startMode = .atTime ∧ time g.startParam ∨ g.startMode = .atTimecode ∧ timecode g.startParam)
    let full : Prop := 4 ≤ e.places[f].closing.length
    let last : Prop := k.stopMode = .afterFrames ∧ k.position + 1 = max 1 (k.stopParam.setWidth 32).toNat
    let t := (e.takeFrame x f a).1
    let verdict := (e.takeFrame x f a).2
    let closes (why : CloseReason) : Prop := t.places[f].closing = e.places[f].closing ++ [k.id] ∧
      t.places[f].deferredStop = none ∧ .sheetState k.id k.sheet .closing ∈ t.port.writes ∧
      (t.take? k.id).map (fun k => (k.state, k.reason, k.endCapture)) = some (.closing, some why, some a.capture)
    let goesOn : Prop := verdict ≠ .outside ∧ t.places[f].live = e.places[f].live ∧
      t.places[f].staged = e.places[f].staged ∧ t.places[f].closing = e.places[f].closing ∧
      (t.take? k.id).map (·.state) = some .recording
    let defers (why : CloseReason) : Prop := goesOn ∧ t.places[f].deferredStop = some why ∧
      (t.take? k.id).map (·.deferredStops) = some (k.deferredStops + 1)
    let begun (g : Take) : Prop := verdict ≠ .outside ∧ t.places[f].live = some g.id ∧ t.places[f].staged = none ∧
      (t.take? g.id).map (fun g => (g.state, g.startCapture, g.beginFrame)) =
        some (.recording, some a.capture, some (a.capture, a.placed.tc))
    let promoted : Prop := t.places[f].live = e.places[f].staged ∧ t.places[f].staged = none ∧
      ∀ g, e.stagedTake f = some g → (t.take? g.id).map (fun g => (g.state, g.startMode)) =
        some (.armed, if g.startMode = .contiguous then .immediate else g.startMode)
    (∀ g why, (starts g ∧ (stops why ∨ (∀ w, ¬stops w) ∧ why = .split) ∨
        e.stagedTake f = some g ∧ g.startMode = .contiguous ∧ stops why) →
      (g.stopMode = .afterFrames → g.position + 1 ≠ max 1 (g.stopParam.setWidth 32).toNat) →
      (full → defers why) ∧ (¬full → closes why ∧ begun g)) ∧
    (∀ why, stops why → (∀ g, e.stagedTake f = some g → g.startMode ≠ .contiguous ∧ ¬starts g) →
      (full → defers why) ∧
      (¬full → (e.places[f].staged.isSome = (e.stagedTake f).isSome → promoted) ∧ closes why ∧ verdict = .outside ∧
        t.slots = e.slots ∧ t.held = e.held ∧ t.opened = e.opened)) ∧
    ((∀ why, ¬stops why) → (∀ g, ¬starts g) →
      (last → verdict = .slotted → (full → defers .frameCount) ∧
        (¬full → closes .frameCount ∧ (e.places[f].staged.isSome = (e.stagedTake f).isSome → promoted))) ∧
      (¬last ∨ verdict = .overrun → goesOn ∧ t.places[f].deferredStop = none) ∧ verdict ≠ .outside)

/-! ## Lanes: lines and metadata -/

/-- LINE_MARKER and SAMPLE_DATA. MARKED framing: a complete marker below H starts the line of its number, any other marker
a line that will be discarded; a complete pair joins a numbered line and is discarded with any other. COUNTED framing:
markers are disregarded; a pair joins the line while the feed has an open frame. An incomplete pair is discarded. A header
in progress is cut off by either. A symbol as the list of its arrived characters is the model's form (log entry 7). -/
def Obligations.LineSymbolsResult : Prop :=
  ∀ (f : FeedId) (chars : List Byte) (n : Settings) (s : State), s.atRest = true →
    s.front.receivers[f].enabled = true → s.front.receivers[f].signal = true → s.front.receivers[f].active = some n →
    let cut := s.cutHeader f
    let p : PixelPair := BitVec.ofNat 40 (fieldAt chars 0 5)
    (n.framing = .counted → exec (.lineMarker f chars) s = .next cut) ∧
    (n.framing = .marked → exec (.lineMarker f chars) s = .next (cut.onReceiver f fun r =>
      { r with line := (match chars with
      | lo :: hi :: _ =>
        if lo.toNat + 256 * hi.toNat < n.h then LineBuffer.numbered (lo.toNat + 256 * hi.toNat) [] else .discarding
      | _ => .discarding) })) ∧
    (chars.length < 5 → exec (.sampleData f chars) s = .next cut) ∧
    (5 ≤ chars.length → n.framing = .marked → exec (.sampleData f chars) s = .next (cut.onReceiver f fun r =>
      { r with line := (match r.line with
        | .numbered y pairs => LineBuffer.numbered y (pairs ++ [p])
        | l => l) })) ∧
    (5 ≤ chars.length → n.framing = .counted → exec (.sampleData f chars) s = .next (cut.onReceiver f fun r =>
      { r with line := if s.eng.opened[f].isSome then .counted (r.line.counts ++ [p]) else r.line }))

/-- LINE_END of a line with at least one pair taken, in an open frame: a numbered line under MARKED framing, or the next
active line under COUNTED framing, its LeftSkip pixels left out. Pair `j` of the line in the slot is the line's pair `j`, or
its last pair behind its end; every byte of card DRAM outside the line reads as before; the line's number joins the
received-line set, and a short line sets PADDED. While the frame stays open nothing else changes. The line that completes
it (none missing, or active line H − 1) closes it, here in a take with browse disabled: the missing lines are concealed, the
feed has no open frame, and the slot is READY with its flags and its concealed count. -/
def Obligations.LineEndStoresLine : Prop :=
  ∀ (f : FeedId) (y : Nat) (pairs : List PixelPair) (o : OpenFrame) (n : Settings) (s : State),
    s.front.receivers[f].enabled = true → s.front.receivers[f].signal = true → s.front.receivers[f].inHeader = false →
    s.front.receivers[f].active = some n → n.w % 2 = 0 → pairs ≠ [] → s.eng.opened[f] = some o →
    (n.framing = .marked ∧ s.front.receivers[f].line = .numbered y pairs ∨
      n.framing = .counted ∧ o.topSkip ≤ o.lines ∧ y = o.lines - o.topSkip ∧
        pairs = s.front.receivers[f].line.counts.drop (o.leftSkip / 2)) →
    let received := insertNat y o.received
    let padded := o.padded || decide (pairs.length < n.w / 2)
    let completes := (n.framing = .marked ∧ missingLines n.h received = []) ∨ (n.framing = .counted ∧ n.h ≤ y + 1)
    let stored (m : Dram) : Prop :=
      (∀ j, j < n.w / 2 → m.readRange (o.slot.val * 9437184 + y * (4 * n.w) + 8 * j) 8 =
        packPair (pairs.getD j (pairs.getLast?.getD 0))) ∧
      (∀ a, a < o.slot.val * 9437184 + y * (4 * n.w) ∨ o.slot.val * 9437184 + y * (4 * n.w) + 4 * n.w ≤ a →
        m.read a = s.front.dram.read a)
    (s.atRest = true → ¬completes → ∃ t, exec (.lineEnd f) s = .next t ∧ stored t.front.dram ∧
      t.eng = { s.eng with
        opened := upd s.eng.opened f fun _ => some { o with
          lines := if n.framing = .counted then o.lines + 1 else o.lines
          received := received
          padded := padded } } ∧
      t.front = { s.front with
        dram := t.front.dram, receivers := upd s.front.receivers f fun r => { r with line := .empty } } ∧
      t.pending = s.pending) ∧
    (completes → ∀ slot k, s.eng.slots[o.slot] = some slot → s.eng.take? slot.take = some k → k.browseOn = false →
      s.front.attention.quiet = true → s.eng.busyWaiting = true →
      ∃ t m, exec (.lineEnd f) s = .next t ∧ stored m ∧ t.front.dram = m.conceal o.slot n.w n.h received ∧
        t.eng.opened[f] = none ∧ t.eng.slots[o.slot] = some { slot with
          state := .ready
          padded := padded
          concealed := 0 < (missingLines n.h received).length
          concealedCount := (missingLines n.h received).length
          browse := .decided .disabled } ∧
        (∀ i, i ≠ o.slot → t.eng.slots[i] = s.eng.slots[i]) ∧ t.eng.takes = s.eng.takes ∧ t.eng.held = s.eng.held ∧
        t.front.receivers = upd s.front.receivers f fun r => { r with line := .empty })

/-- LINE_END that stores nothing: with no open frame, or, under MARKED framing, with no pair in a numbered line, the line in
progress alone ends; under COUNTED framing a line of the first TopSkip lines is counted and discarded, and so is an active
line with no pair behind its LeftSkip pixels, which stays missing. That a Line End ahead of the frame's first Sample data ends
and counts a line too is the model's choice (log entry 37). Active line H − 1 without such a pair closes the frame as
well: its slot is READY, or FREE when no line was received. -/
def Obligations.LineEndStoresNothing : Prop :=
  ∀ (f : FeedId) (n : Settings) (s : State), s.front.receivers[f].enabled = true →
    s.front.receivers[f].signal = true → s.front.receivers[f].inHeader = false → s.front.receivers[f].active = some n →
    (s.atRest = true →
      (s.eng.opened[f] = none ∨ n.framing = .marked ∧ (∀ y p ps, s.front.receivers[f].line ≠ .numbered y (p :: ps))) →
      exec (.lineEnd f) s = .next (s.onReceiver f fun r => { r with line := .empty })) ∧
    (∀ o, s.atRest = true → n.framing = .counted → s.eng.opened[f] = some o →
      (o.lines < o.topSkip ∨ s.front.receivers[f].line.counts.length ≤ o.leftSkip / 2 ∧
        o.lines - o.topSkip + 1 < n.h) →
      exec (.lineEnd f) s = .next ((s.onReceiver f fun r => { r with line := .empty }).act
        fun _ e => { e with opened := upd e.opened f fun _ => some { o with lines := o.lines + 1 } })) ∧
    (∀ o slot k, n.framing = .counted → s.eng.opened[f] = some o → o.topSkip ≤ o.lines →
      s.front.receivers[f].line.counts.length ≤ o.leftSkip / 2 → n.h ≤ o.lines - o.topSkip + 1 →
      s.eng.slots[o.slot] = some slot → s.eng.take? slot.take = some k → k.browseOn = false →
      s.front.attention.quiet = true → s.eng.busyWaiting = true →
      ∃ t, exec (.lineEnd f) s = .next t ∧ t.eng.opened[f] = none ∧
        (o.received ≠ [] → (t.eng.slots[o.slot]).map (·.state) = some .ready ∧
          t.front.dram = s.front.dram.conceal o.slot n.w n.h o.received) ∧
        (o.received = [] → t.eng.slots[o.slot] = none ∧ t.front.dram = s.front.dram))

/-- METADATA_PACKET: the packet's complete items are applied one at a time in packet order, whatever the link state; an
item count outside 1 to 8 applies none. A header in progress is cut off. A packet as the list of its arrived
characters is the model's form (log entry 7). One item applied to the Field Metadata Record: the record keeps at
most eight items with ascending tags; a zero value removes the tag, another value replaces or adds it, a ninth tag
and tag 0 are discarded; other tags keep their values, and a tag joins the changed set exactly when its value
changes. -/
def Obligations.MetadataPacketAndItems : Prop :=
  (∀ (f : FeedId) (count : Byte) (items : List Byte) (s : State), s.atRest = true →
     s.front.receivers[f].enabled = true → s.front.receivers[f].signal = true →
     (count = 0 ∨ 8 < count.toNat → exec (.metadataPacket f (count :: items)) s = .next (s.cutHeader f)) ∧
     (1 ≤ count.toNat → count.toNat ≤ 8 → exec (.metadataPacket f (count :: items)) s =
       .next ((s.cutHeader f).onReceiver f fun r => ((List.range (min count.toNat (items.length / 7))).map fun i =>
         (⟨BitVec.ofNat 8 (fieldAt items (7 * i) 1), BitVec.ofNat 48 (fieldAt items (7 * i + 1) 6)⟩ : Item)).foldl
           Receiver.applyItem r))) ∧
  (∀ (r : Receiver) (i : Item), metadataGood r.metadata →
     let r' := r.applyItem i
     metadataGood r'.metadata ∧
     (∀ tag, tag ≠ i.tag → itemValue r'.metadata tag = itemValue r.metadata tag) ∧
     (i.tag = 0 → r' = r) ∧
     (i.tag ≠ 0 → i.value = 0 → itemValue r'.metadata i.tag = none) ∧
     (i.tag ≠ 0 → i.value ≠ 0 → (itemValue r.metadata i.tag ≠ none ∨ r.metadata.length < 8) →
       itemValue r'.metadata i.tag = some i.value) ∧
     (i.value ≠ 0 → itemValue r.metadata i.tag = none → r.metadata.length = 8 → r' = r) ∧
     (∀ tag, tag ∈ r'.changed ↔
       tag ∈ r.changed ∨ tag = i.tag ∧ itemValue r'.metadata tag ≠ itemValue r.metadata tag) ∧
     r' = { r with metadata := r'.metadata, changed := r'.changed })

/-! ## Reference time -/

/-- The two ends of a pending time load. REF_PULSE_EDGE: the count takes the load value, every capture history is emptied,
deadlines and measured periods stay, and the load is answered DONE. TIME_LOAD_WAIT_EXPIRY, the wait being 0: the load
becomes absent, count and histories stay, and it is answered NO_PULSE. Either answer raises the global count by one, joins
the write list and sets the global mark. That the wait's end acts at wait 0 is the model's choice (log entry 3). -/
def Obligations.TimeLoadEndsResult : Prop :=
  ∀ (l : TimeLoad) (s : State), s.atRest = true → s.linkBusy = true → s.front.pendingLoad = some l →
    (∃ t tail, exec .refPulseEdge s = .next t ∧
      let a : GlobalAnswer := ⟨s.front.attention.answer.taken + 1, some .timeLoad, some .done⟩
      t.front = { s.front with
        refCount := l.value
        pendingLoad := none
        timers := s.front.timers.map fun k => { k with history := [] }
        attention := { s.front.attention with answer := a } } ∧
      t.eng.port.writes = s.eng.port.writes ++ .globalAnswer a :: tail ∧ t.eng.notices.globalMark = true ∧
      t.eng.takes = s.eng.takes ∧ t.eng.slots = s.eng.slots ∧ t.pending = s.pending) ∧
    (l.wait = 0 → ∃ t tail, exec .timeLoadWaitExpiry s = .next t ∧
      let a : GlobalAnswer := ⟨s.front.attention.answer.taken + 1, some .timeLoad, some .noPulse⟩
      t.front = { s.front with pendingLoad := none, attention := { s.front.attention with answer := a } } ∧
      t.eng.port.writes = s.eng.port.writes ++ .globalAnswer a :: tail ∧ t.eng.notices.globalMark = true ∧
      t.eng.takes = s.eng.takes ∧ t.eng.slots = s.eng.slots ∧ t.pending = s.pending)

/-! ## The host link -/

/-- READ_COMPLETION with an error and READ_TIMEOUT at remaining time 0 set LINK_FAULT in every state; a time load value
that could not be read is answered LINK_ERROR, and a pending time load held stays. That the timeout acts at remaining time 0 is
the model's choice (log entry 3). -/
def Obligations.ReadFailureResult : Prop :=
  ∀ (c : Instr) (o : Outstanding) (s : State), s.eng.port.outstanding = some o →
    (c = .readCompletion ⟨o.number, .error⟩ ∨ c = .readTimeout ∧ o.remaining = 0) →
    ∃ t, exec c s = .next t ∧ t.front.flags.linkFault = true ∧
      t.front.flags.resetSeen = s.front.flags.resetSeen ∧
      t.front.flags.attentionIgnored = s.front.flags.attentionIgnored ∧ t.front.refCount = s.front.refCount ∧
      (o.wanted = true → o.request = .timeValue → s.front.attention.global = none →
        (∀ g : FeedId, s.front.attention.pending[g] = none) →
        t.front.attention = { s.front.attention with
          service := none
          answer := ⟨s.front.attention.answer.taken + 1, some .timeLoad, some .linkError⟩ } ∧
        t.front.pendingLoad = s.front.pendingLoad)

/-- READ_COMPLETION of the settings block of a LOAD or LOAD_COMMON in service. An error is answered LINK_ERROR, a failing
block BAD_SETTING with the field's index, and, while the feed has a Live, Staged or Closing take, a disabling block or one
of another framing, rate class, W or H REFUSED_STATE; none of these changes a receiver. Any other block is answered DONE.
On an enabled LOCKED feed it becomes the pending settings. Otherwise it is applied at once. A disabling block: the feed is
OFF and DARK, its line, marks and timer cleared. An enabling block on an OFF feed, or one of another format: the link is
SEEKING or DARK by the lane signal, or by the link before, and record, marks, tally, expectation and timer are emptied. A
block of the same format changes the active settings alone. The reduction context follows the active settings. -/
def Obligations.SettingsReadResult : Prop :=
  ∀ (f : FeedId) (req : FeedRequest) (o : Outstanding) (bytes : List Byte) (s : State),
    (req = .load ∧ o.request = .settings f ∨ req = .loadCommon ∧ o.request = .common f) →
    s.eng.port.outstanding = some o → o.wanted = true → s.front.attention.onlyFeed f = true → bytes.length = 32 →
    let r := s.front.receivers[f]
    let answered (t : State) (res : Result) (index : Nat) : Prop :=
      t.front.attention.answers[f] = ⟨s.front.attention.answers[f].taken + 1, some req, some res, index⟩ ∧
        ∀ g : FeedId, g ≠ f → t.front.receivers[g] = s.front.receivers[g]
    let taken := exec (.readCompletion ⟨o.number, .data bytes⟩) s
    let differs (n m : Settings) : Prop := n.framing ≠ m.framing ∨ n.rate ≠ m.rate ∨ n.w ≠ m.w ∨ n.h ≠ m.h
    (∃ t, exec (.readCompletion ⟨o.number, .error⟩) s = .next t ∧ answered t .linkError 0 ∧
      t.front.receivers = s.front.receivers) ∧
    (∀ index, parseSettings bytes = .error index → ∃ t, taken = .next t ∧ answered t .badSetting index ∧
      t.front.receivers = s.front.receivers) ∧
    (∀ b, parseSettings bytes = .ok b → s.eng.places[f].any = true →
      (b = .disabling ∨ ∃ n m, b = .enabling n ∧ differs n m ∧
        (r.waiting = some (.enabling m) ∨ r.waiting = none ∧ r.active = some m)) →
      ∃ t, taken = .next t ∧ answered t .refusedState 0 ∧ t.front.receivers = s.front.receivers) ∧
    (∀ b, parseSettings bytes = .ok b → r.enabled = true → r.link = .locked →
      (s.eng.places[f].any = false ∨ ∃ n m, b = .enabling n ∧ ¬differs n m ∧
        (r.waiting = some (.enabling m) ∨ r.waiting = none ∧ r.active = some m)) →
      ∃ t, taken = .next t ∧ answered t .done 0 ∧ t.front.receivers[f] = { r with waiting := some b } ∧
        t.front.timers = s.front.timers ∧ t.front.reduce = s.front.reduce) ∧
    (parseSettings bytes = .ok .disabling → s.eng.places[f].any = false → ¬(r.enabled = true ∧ r.link = .locked) →
      ∃ t, taken = .next t ∧ answered t .done 0 ∧ t.front.timers[f] = ⟨[], none, false, none⟩ ∧
        t.front.receivers[f] = { r with
          enabled := false, link := .dark, candidate := false, hasLocked := false, relock := none, waiting := none
          line := .empty, inHeader := false }) ∧
    (∀ n, parseSettings bytes = .ok (.enabling n) → s.eng.places[f].any = false →
      ¬(r.enabled = true ∧ r.link = .locked) → (r.enabled = false ∨ ∃ m, r.active = some m ∧ differs n m) →
      ∃ t, taken = .next t ∧ answered t .done 0 ∧ t.front.timers[f] = ⟨[], none, false, none⟩ ∧
        t.front.reduce[f] = some n.reduceContext ∧ t.front.receivers[f] = { r with
          enabled := true
          link := if (if r.enabled then r.link ≠ .dark else r.signal = true) then .seeking else .dark
          candidate := false
          hasLocked := false
          relock := none
          active := some n
          waiting := none
          metadata := []
          changed := []
          tally := ⟨0, 0, 0, 0⟩
          expected := none }) ∧
    (∀ n m, parseSettings bytes = .ok (.enabling n) → r.enabled = true → r.link ≠ .locked → r.active = some m →
      r.waiting = none → ¬differs n m →
      ∃ t, taken = .next t ∧ answered t .done 0 ∧ t.front.receivers[f] = { r with active := some n } ∧
        t.front.timers = s.front.timers ∧ t.front.reduce[f] = some n.reduceContext)

/-- A settings block. Enable 0 makes it disabling. Otherwise the first of framing, rate class, W, H and F, in this order,
that holds no accepted value gives its field index; with all five accepted, every field carries the value at its offset,
brought into its range; and so every field of a block that is taken is in range. -/
def Obligations.SettingsInRange : Prop :=
  ∀ bytes : List Byte,
    let at1 (off : Nat) : Nat := leNat ((bytes.drop off).take 1)
    let at2 (off : Nat) : Nat := leNat ((bytes.drop off).take 2)
    let framings : List (Nat × Framing) := [(1, .marked), (2, .counted)]
    let rates : List (Nat × RateClass) := [(1, .fps25), (2, .fps50), (3, .drop30), (4, .drop60)]
    let framingGood := ∃ v, (at1 1, v) ∈ framings
    let rateGood := ∃ v, (at1 2, v) ∈ rates
    let wGood := at2 4 % 2 = 0 ∧ 256 ≤ at2 4 ∧ at2 4 ≤ 2048
    let hGood := 144 ≤ at2 6 ∧ at2 6 ≤ 1152
    let factorGood := at1 3 ∈ [2, 3, 4, 6, 8]
    (at1 0 = 0 → parseSettings bytes = .ok .disabling) ∧
    (at1 0 ≠ 0 →
      (¬framingGood → parseSettings bytes = .error 2) ∧
      (framingGood → ¬rateGood → parseSettings bytes = .error 3) ∧
      (framingGood → rateGood → ¬wGood → parseSettings bytes = .error 4) ∧
      (framingGood → rateGood → wGood → ¬hGood → parseSettings bytes = .error 5) ∧
      (framingGood → rateGood → wGood → hGood → ¬factorGood → parseSettings bytes = .error 12) ∧
      (∀ framing rate, (at1 1, framing) ∈ framings → (at1 2, rate) ∈ rates → wGood → hGood → factorGood →
        parseSettings bytes = .ok (.enabling {
          framing := framing
          rate := rate
          w := at2 4
          h := at2 6
          factor := at1 3
          topSkip := min 63 (at1 0x08)
          lossWindow := max 1 (min 60 (at1 0x09))
          leftSkip := min 510 (at2 0x0A - at2 0x0A % 2)
          tolerance := max 1 (min 500 (at2 0x0C))
          gapLimit := max 1 (at2 0x0E)
          ceiling := max 2 (min 24 (at1 0x10))
          lag := max 1 (min 8 (at1 0x11))
          dither := at1 0x12 ≠ 0
          ditherCode := min 7 (at1 0x13)
          ditherPhase := min 3 (at1 0x14)
          stride := at2 0x16 }))) ∧
    (∀ n, parseSettings bytes = .ok (.enabling n) →
      (n.w % 2 = 0 ∧ 256 ≤ n.w ∧ n.w ≤ 2048) ∧ (144 ≤ n.h ∧ n.h ≤ 1152) ∧ n.factor ∈ [2, 3, 4, 6, 8] ∧
      n.topSkip ≤ 63 ∧ (n.leftSkip % 2 = 0 ∧ n.leftSkip ≤ 510) ∧ (1 ≤ n.lossWindow ∧ n.lossWindow ≤ 60) ∧
      (1 ≤ n.tolerance ∧ n.tolerance ≤ 500) ∧ (1 ≤ n.gapLimit ∧ n.gapLimit ≤ 65535) ∧
      (2 ≤ n.ceiling ∧ n.ceiling ≤ 24) ∧ (1 ≤ n.lag ∧ n.lag ≤ 8) ∧ n.ditherCode ≤ 7 ∧ n.ditherPhase ≤ 3 ∧
      n.stride ≤ 65535) ∧
    (∀ index, parseSettings bytes = .error index → index ∈ [2, 3, 4, 5, 12])

/-- READ_COMPLETION of the time load value: the low 48 bits become the pending load with a full wait of 54,000,000
ticks; a load held before is answered SUPERSEDED; no answer is written for the new one. READ_COMPLETION of the page
header at START: with layout version 1 and page size 8,192 the part enters RUNNING, PAGE_FAULT is cleared and START
is answered DONE; otherwise, and on an error, the part returns to STANDBY with PAGE_FAULT set and writes no
answer. -/
def Obligations.GlobalReadsResult : Prop :=
  (∀ (o : Outstanding) (bytes : List Byte) (s : State), s.eng.port.outstanding = some o → o.wanted = true →
     o.request = .timeValue → bytes.length = 8 → s.front.attention.global = none →
     (∀ g : FeedId, s.front.attention.pending[g] = none) →
     ∃ t, exec (.readCompletion ⟨o.number, .data bytes⟩) s = .next t ∧
       t.front.pendingLoad = some ⟨BitVec.ofNat 48 (leNat (bytes.take 6)), 54000000⟩ ∧
       t.front.refCount = s.front.refCount ∧ t.front.attention = { s.front.attention with
         service := none
         answer := if s.front.pendingLoad.isSome then
             ⟨s.front.attention.answer.taken + 1, some .timeLoad, some .superseded⟩
           else s.front.attention.answer }) ∧
  (∀ (o : Outstanding) (bytes : List Byte) (s : State), s.eng.port.outstanding = some o → o.wanted = true →
     o.request = .pageHeader → bytes.length = 8 → s.front.attention.global = none →
     (∀ g : FeedId, s.front.attention.pending[g] = none) →
     (fieldAt bytes 0 4 = 1 ∧ fieldAt bytes 4 4 = 8192 → ∃ t, exec (.readCompletion ⟨o.number, .data bytes⟩) s = .next t ∧
       t.front.attention = { s.front.attention with
         part := .running, service := none
         answer := ⟨s.front.attention.answer.taken + 1, some .start, some .done⟩ } ∧
       t.front.flags = { s.front.flags with pageFault := false }) ∧
     (¬(fieldAt bytes 0 4 = 1 ∧ fieldAt bytes 4 4 = 8192) → ∃ t, exec (.readCompletion ⟨o.number, .data bytes⟩) s = .next t ∧
       t.front.attention = { s.front.attention with part := .standby, service := none } ∧
       t.front.flags = { s.front.flags with pageFault := true }) ∧
     (∃ t, exec (.readCompletion ⟨o.number, .error⟩) s = .next t ∧
       t.front.attention = { s.front.attention with part := .standby, service := none } ∧
       t.front.flags = { s.front.flags with pageFault := true, linkFault := true }))

/-- READ_COMPLETION of ARM's reads. An error of any of the three is answered LINK_ERROR. The staged sheet address: 0 or no
multiple of 2,048 is answered BAD_SHEET, an address that some take context holds SHEET_IN_USE, and for any other the sheet's
header is asked. The header: an unknown mode code or an index posted count of 0 is answered BAD_SHEET; otherwise index entry
0 is asked. An index entry that is good makes the take, with the header's copy, that extent consumed and the entries passed
held, and is answered DONE behind the sheet's state; an invalid one is passed for the next posted entry, and BAD_SHEET is
answered when there is none. An answer other than DONE changes no take. That the take is made also on a feed that has gone
OFF since the ARM was served is the model's choice (log entry 47). -/
def Obligations.ArmReadsResult : Prop :=
  ∀ (f : FeedId) (o : Outstanding) (bytes : List Byte) (s : State), s.eng.port.outstanding = some o → o.wanted = true →
    s.front.attention.onlyFeed f = true → s.eng.busyWaiting = true →
    let u := s.front.attention
    let taken := exec (.readCompletion ⟨o.number, .data bytes⟩) s
    let answered (t : State) (res : Result) : Prop := t.front.attention = { u with
        service := none
        pending := upd u.pending f fun _ => none
        answers := upd u.answers f fun a => ⟨a.taken + 1, some .arm, some res, 0⟩ }
    let fails (out : Host.Outcome State Fault Refusal) (res : Result) : Prop := ∃ t, out = .next t ∧ answered t res ∧
      t.eng.takes = s.eng.takes ∧ t.eng.places = s.eng.places ∧ t.eng.port.reads = s.eng.port.reads
    let asks (v : Service) (q : ReadRequest) : Prop := ∃ t, taken = .next t ∧
      t.front.attention = { u with service := some v } ∧ t.eng.port.reads = s.eng.port.reads ++ [q] ∧
      t.eng.port.outstanding = none ∧ t.eng.takes = s.eng.takes ∧ t.eng.places = s.eng.places
    ((o.request = .stagedAddress f ∨ (∃ a, o.request = .sheetHeader f a) ∨ ∃ a i, o.request = .armEntry f a i) →
      fails (exec (.readCompletion ⟨o.number, .error⟩) s) .linkError) ∧
    (o.request = .stagedAddress f → bytes.length = 8 → u.pending[f] = some ⟨.arm, true⟩ →
      let sheet : HostAddr := BitVec.ofNat 64 (leNat bytes)
      (leNat bytes = 0 ∨ leNat bytes % 2048 ≠ 0 → fails taken .badSheet) ∧
      (leNat bytes ≠ 0 → leNat bytes % 2048 = 0 →
        ((∃ k ∈ s.eng.takes, k.sheet = sheet) → fails taken .sheetInUse) ∧
        ((∀ k ∈ s.eng.takes, k.sheet ≠ sheet) → asks (.armHeader f sheet) (.sheetHeader f sheet)))) ∧
    (∀ sheet, o.request = .sheetHeader f sheet → bytes.length = 27 → u.pending[f] = some ⟨.arm, true⟩ →
      let mode (off : Nat) : Prop := 1 ≤ fieldAt bytes off 1 ∧ fieldAt bytes off 1 ≤ 4
      (¬mode 5 ∨ ¬mode 6 ∨ fieldAt bytes 26 1 = 0 → fails taken .badSheet) ∧
      (mode 5 → mode 6 → fieldAt bytes 26 1 ≠ 0 → ∃ h : SheetHeader, asks (.armEntries f sheet h 0 []) (.armEntry f sheet 0) ∧
        h.label.toNat = fieldAt bytes 0 4 ∧ (h.browse = true ↔ fieldAt bytes 4 1 ≠ 0) ∧
        (fieldAt bytes 5 1, h.startMode) ∈ [(1, StartMode.immediate), (2, .atTime), (3, .atTimecode), (4, .contiguous)] ∧
        (fieldAt bytes 6 1, h.stopMode) ∈ [(1, StopMode.onRequest), (2, .atTime), (3, .atTimecode), (4, .afterFrames)] ∧
        h.startParam.toNat = fieldAt bytes 8 8 ∧ h.stopParam.toNat = fieldAt bytes 16 8 ∧
        h.essencePosted = min 32 (fieldAt bytes 24 1) ∧ h.browsePosted = min 32 (fieldAt bytes 25 1) ∧
        h.indexPosted = min 8 (fieldAt bytes 26 1))) ∧
    (∀ sheet h i passed, o.request = .armEntry f sheet i → u.service = some (.armEntries f sheet h i passed) →
      bytes.length = 16 → u.pending[f] = some ⟨.arm, true⟩ →
      let good : Prop := fieldAt bytes 0 8 % 4096 = 0 ∧ fieldAt bytes 8 4 ≠ 0
      (good → (∀ k ∈ s.eng.takes, k.id ≠ s.eng.nextId) → ∃ t k before behind, taken = .next t ∧ answered t .done ∧
        t.eng.take? s.eng.nextId = some k ∧ k.sheet = sheet ∧ k.label = h.label ∧ k.browseOn = h.browse ∧
        k.startMode = (if h.startMode = .contiguous ∧ k.state = .armed then .immediate else h.startMode) ∧
        k.startParam = h.startParam ∧ k.stopMode = h.stopMode ∧ k.stopParam = h.stopParam ∧ k.position = 0 ∧ k.queue = [] ∧
        k.essence = ⟨0, h.essencePosted, []⟩ ∧ k.browse = ⟨0, h.browsePosted, []⟩ ∧ k.heldRejects = passed ∧
        k.index = ⟨i + 1, h.indexPosted, [⟨i, BitVec.ofNat 64 (fieldAt bytes 0 8), fieldAt bytes 8 4⟩]⟩ ∧
        (k.state = .armed ∨ k.state = .staged) ∧ t.eng.port.writes = before ++
          .answer f ⟨u.answers[f].taken + 1, some .arm, some .done, 0⟩ :: behind ∧
        .sheetState k.id sheet (if k.state = .armed then .armed else .staged) ∈ before) ∧
      (¬good → i + 1 < h.indexPosted → asks (.armEntries f sheet h (i + 1) (passed ++ [i])) (.armEntry f sheet (i + 1))) ∧
      (¬good → h.indexPosted ≤ i + 1 → fails taken .badSheet))

/-- LINK_BURST_COMPLETE: a write or a message that was being sent is delivered, behind everything delivered before; a
read's burst delivers nothing. A slot that drains for the burst is FREE in the next state and stands in no held list. When
nothing else is left to do, the next state's engine is that of the completed burst alone: the link is free, every other slot
stays, and so does the burst's own slot, with the held lists, when it does not drain. A burst without a slot (the Record
Port's, the Index Writer's, the Browse Writer's) frees the link and changes nothing else. -/
def Obligations.LinkBurstCompleteResult : Prop :=
  (∀ (b : Burst) (s : State), s.eng.arbiter.busy = some b →
    ∃ t, exec .linkBurstComplete s = .next t ∧ t.front.delivered = s.front.delivered ++ (match b.payload with
        | .write addr bytes => [Delivery.write addr bytes]
        | .read _ _ => []
        | .message addr data => [Delivery.message addr data]) ∧
      t.front.dram = s.front.dram ∧ t.front.refCount = s.front.refCount ∧ t.front.flags = s.front.flags ∧
      (∀ i slot, b.slot = some i → s.eng.slots[i] = some slot → slot.state = .draining →
        t.eng.slots[i] = none ∧ ∀ f : FeedId, i ∉ t.eng.held[f]) ∧
      (State.atRest { s with eng := s.eng.burstDone b } = true → t.eng = s.eng.burstDone b)) ∧
  (∀ (b : Burst) (e : Engine), (∀ i, b.slot = some i → e.slots[i] = none) →
    e.burstDone b = { e with arbiter := { e.arbiter with busy := none } }) ∧
  (∀ (b : Burst) (i : SlotId) (slot : Slot) (e : Engine), b.slot = some i → e.slots[i] = some slot →
    (e.burstDone b).arbiter.busy = none ∧ (∀ j, j ≠ i → (e.burstDone b).slots[j] = e.slots[j]) ∧
    (slot.state = .draining → (e.burstDone b).slots[i] = none ∧ ∀ f : FeedId, i ∉ (e.burstDone b).held[f]) ∧
    (slot.state ≠ .draining → (e.burstDone b).slots[i] = some slot ∧ (e.burstDone b).held = e.held))

/-- BROWSE_BAND_COMPLETE while the Browse Writer has no line in hand: the browse line of the band, formed from the F by F
block sums with their biases over 4F², is handed over at its place in browse space, and the next band starts. -/
def Obligations.BrowseBandCompleteResult : Prop :=
  ∀ (r : Reduction) (k : Take) (g : Geometry) (s : State), s.atRest = true → s.linkBusy = true →
    s.eng.reducer.frame = some r → r.sums = none → r.nextLine < r.hb → s.eng.reducer.line = none →
    s.eng.take? r.take = some k → k.geom = some g →
    let base := r.slot.val * 9437184
    let v := r.nextLine
    let sample (sum u : Nat) : Byte := BitVec.ofNat 8
      (min 255 ((sum + (if r.dither then (2 * ditherEntry (v + r.py) (u + r.px) + 1) * (4 * (r.factor * r.factor)) / 32
        else 2 * (r.factor * r.factor))) / (4 * (r.factor * r.factor))))
    exec .browseBandComplete s = .next { s with eng := { s.eng with reducer := { s.eng.reducer with
      frame := some { r with nextLine := v + 1 }
      line := some ⟨v, r.position * r.bfb + v * (2 * r.wb), (List.range (r.wb / 2)).flatMap fun j =>
        [ sample (blockSum r.factor (cbAt s.front.dram base g.w) (j * r.factor) (v * r.factor)) (2 * j),
          sample (blockSum r.factor (lumaAt s.front.dram base g.w) (2 * j * r.factor) (v * r.factor)) (2 * j),
          sample (blockSum r.factor (crAt s.front.dram base g.w) (j * r.factor) (v * r.factor)) (2 * j),
          sample (blockSum r.factor (lumaAt s.front.dram base g.w) ((2 * j + 1) * r.factor) (v * r.factor))
            (2 * j + 1) ]⟩ } } }

/-! ## ATTENTION -/

/-- ATTENTION writes that are dropped set ATTENTION_IGNORED and change nothing else: a feed request outside RUNNING or
with an empty mask, STANDBY and TIME_LOAD outside RUNNING, START in STARTING, and a code that names no request. A write
decoded from the whole word is the request its code names for the feeds of its mask; that ATTENTION_IGNORED carries the
word is the model's form (log entry 8). -/
def Obligations.AttentionWriteDecoded : Prop :=
  ∀ (s : State) (mask : BitVec 16),
    (s.atRest = true → (s.front.attention.part ≠ .running ∨ mask = 0) →
      ∀ c ∈ [Instr.load mask, .loadCommon mask, .arm mask, .stop mask, .halt mask, .abort mask, .refill mask,
        .feedReset mask], exec c s = .next (s.onFlags fun g => { g with attentionIgnored := true })) ∧
    (s.atRest = true → s.front.attention.part ≠ .running → ∀ c ∈ [Instr.standby mask, .timeLoad mask],
      exec c s = .next (s.onFlags fun g => { g with attentionIgnored := true })) ∧
    (s.atRest = true → s.front.attention.part = .starting →
      exec (.start mask) s = .next (s.onFlags fun g => { g with attentionIgnored := true })) ∧
    (∀ (reserved code : BitVec 8),
      (s.atRest = true → (code = 0 ∨ 8 < code.toNat ∧ code.toNat < 16 ∨ 18 < code.toNat) →
        exec (.attentionIgnored (reserved ++ code ++ mask)) s =
          .next (s.onFlags fun g => { g with attentionIgnored := true })) ∧
      ∀ p ∈ [((1 : BitVec 8), Instr.load mask), (2, .loadCommon mask), (3, .arm mask), (4, .stop mask), (5, .halt mask),
        (6, .abort mask), (7, .refill mask), (8, .feedReset mask), (16, .start mask), (17, .standby mask),
        (18, .timeLoad mask)], code = p.1 → exec (.attentionIgnored (reserved ++ code ++ mask)) s = exec p.2 s)

/-- Refused feed requests. For a feed that has a pending request: answered REFUSED_PENDING at once, the pending request
unchanged. ARM, STOP, HALT, ABORT and REFILL of an OFF feed: answered REFUSED_STATE, the feed becoming the last-served one.
Either answer raises the count by one, and nothing else of the front changes. -/
def Obligations.FeedRequestsRefused : Prop :=
  ∀ (f : FeedId) (s : State), s.front.attention.part = .running →
    (s.front.attention.pending[f] ≠ none → s.front.attention.quiet = true →
      ∀ p ∈ [(FeedRequest.load, Instr.load (maskOf f)), (.loadCommon, .loadCommon (maskOf f)), (.arm, .arm (maskOf f)),
        (.stop, .stop (maskOf f)), (.halt, .halt (maskOf f)), (.abort, .abort (maskOf f)),
        (.refill, .refill (maskOf f)), (.feedReset, .feedReset (maskOf f))],
      ∃ t, exec p.2 s = .next t ∧ t.front = { s.front with attention := { s.front.attention with
        answers := upd s.front.attention.answers f fun a => ⟨a.taken + 1, some p.1, some .refusedPending, 0⟩ } }) ∧
    (s.front.attention.clear = true → s.front.receivers[f].enabled = false →
      ∀ p ∈ [(FeedRequest.arm, Instr.arm (maskOf f)), (.stop, .stop (maskOf f)), (.halt, .halt (maskOf f)),
        (.abort, .abort (maskOf f)), (.refill, .refill (maskOf f))],
      ∃ t, exec p.2 s = .next t ∧ t.front = { s.front with attention := { s.front.attention with
        lastServed := some f
        answers := upd s.front.attention.answers f fun a => ⟨a.taken + 1, some p.1, some .refusedState, 0⟩ } })

/-- Requests that read host memory, taken in RUNNING while nothing else is requested: LOAD, LOAD_COMMON and, for an enabled
feed, ARM become the feed's request in hand and go into service with their read asked, the feed becoming the last-served
one; TIME_LOAD goes into service with the read of its value asked. -/
def Obligations.ReadingRequestsServed : Prop :=
  ∀ (f : FeedId) (mask : BitVec 16) (s : State), s.atRest = true → s.linkBusy = true →
    s.front.attention.part = .running → s.front.attention.clear = true →
    (∀ p ∈ [(FeedRequest.load, Instr.load (maskOf f), Service.load f, ReadRequest.settings f),
        (.loadCommon, .loadCommon (maskOf f), .loadCommon f, .common f),
        (.arm, .arm (maskOf f), .armAddress f, .stagedAddress f)],
      (p.1 = .arm → s.front.receivers[f].enabled = true) →
      exec p.2.1 s = .next ((s.onAttention fun u => { u with
        pending := upd u.pending f fun _ => some ⟨p.1, true⟩
        lastServed := some f
        service := some p.2.2.1 }).act fun _ e => e.askRead p.2.2.2)) ∧
    exec (.timeLoad mask) s =
      .next ((s.onAttention fun u => { u with service := some .timeLoad }).act fun _ e => e.askRead .timeValue)

/-- START. In STANDBY with PAGE_BASE nonzero and a multiple of 8,192: STARTING, with the page header's read asked. With
any other PAGE_BASE: STANDBY stays, PAGE_FAULT is set and nothing is asked. In RUNNING: answered REFUSED_STATE.
STANDBY in RUNNING. With a feed enabled: answered REFUSED_STATE. With every feed OFF: a pending time load is abandoned,
STANDBY is answered DONE, and the part is in STANDBY; while the link is busy the write list holds the load's SUPERSEDED
answer and, behind it, STANDBY's DONE. -/
def Obligations.StartAndStandbyResult : Prop :=
  ∀ (mask : BitVec 16) (s : State),
    (s.atRest = true → s.linkBusy = true → s.front.attention.part = .standby → s.front.pageBase ≠ 0 →
      s.front.pageBase.toNat % 8192 = 0 →
      exec (.start mask) s = .next ((s.onAttention fun u => { u with part := .starting, service := some .start }).act
        fun _ e => e.askRead .pageHeader)) ∧
    (s.atRest = true → s.front.attention.part = .standby →
      (s.front.pageBase = 0 ∨ s.front.pageBase.toNat % 8192 ≠ 0) →
      exec (.start mask) s = .next (s.onFlags fun g => { g with pageFault := true })) ∧
    (s.front.attention.part = .running → s.front.attention.clear = true →
      (∃ t, exec (.start mask) s = .next t ∧ t.front = { s.front with attention := { s.front.attention with
        answer := ⟨s.front.attention.answer.taken + 1, some .start, some .refusedState⟩ } }) ∧
      ((∃ f : FeedId, s.front.receivers[f].enabled = true) →
        ∃ t, exec (.standby mask) s = .next t ∧ t.front = { s.front with attention := { s.front.attention with
          answer := ⟨s.front.attention.answer.taken + 1, some .standby, some .refusedState⟩ } }) ∧
      ((∀ f : FeedId, s.front.receivers[f].enabled = false) →
        ∃ t, exec (.standby mask) s = .next t ∧ t.front = { s.front with
          pendingLoad := none
          attention := { s.front.attention with
            part := .standby
            answer := ⟨s.front.attention.answer.taken + (if s.front.pendingLoad.isSome then 2 else 1),
              some .standby, some .done⟩ } } ∧
          (s.linkBusy = true →
            let taken := s.front.attention.answer.taken
            (s.front.pendingLoad = none →
              .globalAnswer ⟨taken + 1, some .standby, some .done⟩ ∈ t.eng.port.writes) ∧
            (s.front.pendingLoad ≠ none → ∃ before between behind, t.eng.port.writes = before ++
              .globalAnswer ⟨taken + 1, some .timeLoad, some .superseded⟩ :: between ++
              .globalAnswer ⟨taken + 2, some .standby, some .done⟩ :: behind))))

/-- STOP and HALT of a RECORDING Live take without a Staged take or a deferred stop. With room in the Closing list the take
closes: it joins the tail of the list with its reason and the count as end capture, and END is queued; with four Closing
takes the stop is deferred, and the take goes on. Either is answered DONE, and no slot, held list or open frame changes. -/
def Obligations.StopResult : Prop :=
  ∀ (f : FeedId) (req : FeedRequest) (c : Instr) (reason : CloseReason) (k : Take) (s : State),
    (req = .stop ∧ c = .stop (maskOf f) ∧ reason = .stopped ∨ req = .halt ∧ c = .halt (maskOf f) ∧ reason = .halted) →
    s.front.attention.part = .running → s.front.attention.clear = true → s.front.receivers[f].enabled = true →
    s.eng.liveTake f = some k → k.state = .recording → s.eng.places[f].staged = none →
    s.eng.places[f].deferredStop = none → s.eng.busyWaiting = true →
    ((s.eng.feedRecords f).filter fun r => !r.body.isFrame).length < 488 →
    ∃ t, exec c s = .next t ∧
      t.front.attention.answers[f] =
        ⟨s.front.attention.answers[f].taken + 1, some req, some .done, 0⟩ ∧
      t.eng.slots = s.eng.slots ∧ t.eng.held = s.eng.held ∧ t.eng.opened = s.eng.opened ∧
      t.front.receivers = s.front.receivers ∧ t.front.dram = s.front.dram ∧
      (s.eng.places[f].closing.length < 4 →
        t.eng.places[f] = { s.eng.places[f] with live := none, closing := s.eng.places[f].closing ++ [k.id] } ∧
        t.eng.take? k.id = some { k with
          state := .closing
          reason := some reason
          endCapture := some s.front.refCount
          queue := k.queue ++ [⟨s.eng.nextSeq, .endRecord⟩]
          heldRejects := []
          eventsDiscarded := k.eventsDiscarded + k.heldRejects.length }) ∧
      (4 ≤ s.eng.places[f].closing.length →
        t.eng.places[f] = { s.eng.places[f] with deferredStop := some reason } ∧
        t.eng.take? k.id = some { k with deferredStops := k.deferredStops + 1 })

/-- STOP, HALT and ABORT of an ARMED Live take without a Staged or Closing take: the take leaves Live and is CANCELLED, the
write of that state is asked, and the request is answered DONE. That the context stands as CANCELLED until that write is
issued is the model's choice (log entry 11): the spec has the request write the state and end the take. -/
def Obligations.CancelArmedResult : Prop :=
  ∀ (f : FeedId) (k : Take) (s : State), s.front.attention.part = .running → s.front.attention.clear = true →
    s.front.receivers[f].enabled = true → s.eng.liveTake f = some k → k.state = .armed →
    s.eng.places[f].staged = none → s.eng.places[f].closing = [] → s.eng.busyWaiting = true →
    ∀ p ∈ [(FeedRequest.stop, Instr.stop (maskOf f)), (.halt, .halt (maskOf f)), (.abort, .abort (maskOf f))],
    ∃ t, exec p.2 s = .next t ∧ t.eng.places[f].live = none ∧ t.eng.places[f].staged = none ∧
      t.eng.places[f].closing = [] ∧ t.eng.take? k.id = some { k with state := .cancelled } ∧
      WriteRequest.sheetState k.id k.sheet .cancelled ∈ t.eng.port.writes ∧
      t.front.attention.answers[f] = ⟨s.front.attention.answers[f].taken + 1, some p.1, some .done, 0⟩ ∧
      t.eng.slots = s.eng.slots ∧ t.eng.held = s.eng.held ∧ t.front.receivers = s.front.receivers

/-- FEED_RESET of a feed without takes: the receiver, the timer and the reduction context take their values after
power-on reset, the committed count becomes 0, the cause set holds ANSWER alone, and the answer is DONE; other feeds stay.
That the lane's signal is kept is log entry 6. -/
def Obligations.FeedResetResult : Prop :=
  ∀ (f : FeedId) (s : State), s.front.attention.part = .running → s.front.attention.clear = true →
    s.eng.places[f].live = none → s.eng.places[f].staged = none → s.eng.places[f].closing = [] →
    s.eng.busyWaiting = true →
    ∃ t, exec (.feedReset (maskOf f)) s = .next t ∧
      t.front.receivers[f] = { Receiver.reset with signal := s.front.receivers[f].signal } ∧
      t.front.timers[f] = FeedTimer.reset ∧ t.front.reduce[f] = none ∧ t.eng.board[f].committed = 0 ∧
      t.eng.notices.causes[f] = 0x008 ∧
      t.front.attention.answers[f] = ⟨s.front.attention.answers[f].taken + 1, some .feedReset, some .done, 0⟩ ∧
      (∀ g : FeedId, g ≠ f → t.front.receivers[g] = s.front.receivers[g] ∧ t.front.timers[g] = s.front.timers[g] ∧
        t.front.reduce[g] = s.front.reduce[g] ∧ t.eng.notices.causes[g] = s.eng.notices.causes[g]) ∧
      t.eng.slots = s.eng.slots ∧ t.eng.takes = s.eng.takes ∧ t.front.dram = s.front.dram

/-- REFILL of an enabled feed. With no take to reread it is answered DONE at once. With a RECORDING Live take alone, whose
reread does not wait already, that reread is asked; the request stays in hand, not answered, and no take changes. -/
def Obligations.RefillResult : Prop :=
  ∀ (f : FeedId) (s : State), s.front.attention.part = .running → s.front.attention.clear = true →
    s.front.receivers[f].enabled = true → s.eng.places[f].closing = [] →
    (s.eng.recordingTake f = none → ∃ t, exec (.refill (maskOf f)) s = .next t ∧
      t.front = { s.front with attention := { s.front.attention with
        lastServed := some f
        answers := upd s.front.attention.answers f fun a => ⟨a.taken + 1, some .refill, some .done, 0⟩ } }) ∧
    (∀ k, s.eng.recordingTake f = some k → k.feed = f → s.eng.busyWaiting = true →
      (∀ r ∈ s.eng.port.reads, r.rereads k.id = false) →
      exec (.refill (maskOf f)) s = .next ((s.onAttention fun u => { u with
        pending := upd u.pending f fun _ => some ⟨.refill, true⟩
        lastServed := some f }).act fun _ e => e.askRead (.posted f k.id k.sheet true)))

/-! ## Takes, slots and the index -/

/-- What ends a RECORDING Live take or a Closing take at once. Of one take: it moves to the ending set with its reason and
the count as end capture, what it lost is counted, its queue holds END alone, and no slot of it is left but one that drains.
ABORT of an enabled feed and FEED_RESET do so to the feed's RECORDING Live take and to each of its Closing takes (here while
the blocks wait for other feeds' work, or no other work is there that they could take up); an ARMED
Live take and the Staged take are CANCELLED, the feed has no Live, Staged or deferred stop any more, slots of other takes
stay, and the request is answered DONE. The model's choices, not the spec's, are these: a START that is discarded is counted
nowhere (log entry 16); a Closing take whose END is written gets a further END if its index space holds one, and goes
straight to ABORTED if not (log entry 35); the take's position counter stays as it stands (log entry 44); a CANCELLED
context stands until the write of that state is issued (log entry 11). -/
def Obligations.EndTakeEffect : Prop :=
  (∀ (x : Front) (f : FeedId) (reason : CloseReason) (k : Take) (e : Engine), e.take? k.id = some k →
    let e' := e.endTake x f reason k
    let ended : Take := { k with
      state := .ending
      reason := some reason
      endCapture := some x.refCount
      essenceStarved := false
      indexStarved := false
      refeed := none
      framesDiscarded := k.framesDiscarded + (k.queue.filter fun r => r.body.isFrame).length
      eventsDiscarded := k.eventsDiscarded + (k.queue.filter fun r => r.body.ordinary).length
      queue := [] }
    (32 * (k.indexWritten + 1) ≤ k.index.bytes → e'.take? k.id = some { ended with
      eventsDiscarded := ended.eventsDiscarded + k.heldRejects.length
      heldRejects := []
      queue := [⟨e.nextSeq, .endRecord⟩] }) ∧
    (k.index.bytes < 32 * (k.indexWritten + 1) → e'.take? k.id = some ended ∧
      .sheetState k.id k.sheet .aborted ∈ e'.port.writes) ∧
    k.id ∈ e'.places[f].ending ∧ e'.places[f].live ≠ some k.id ∧ k.id ∉ e'.places[f].closing ∧
    (∀ (i : SlotId) (slot : Slot), e'.slots[i] = some slot → slot.take = k.id → slot.state = .draining) ∧
    (∀ i : SlotId, (∀ slot, e.slots[i] = some slot → slot.take ≠ k.id) → e'.slots[i] = e.slots[i])) ∧
  (∀ (f : FeedId) (req : FeedRequest) (c : Instr) (reason : CloseReason) (s : State),
    (req = .abort ∧ c = .abort (maskOf f) ∧ reason = .aborted ∧ s.front.receivers[f].enabled = true ∨
      req = .feedReset ∧ c = .feedReset (maskOf f) ∧ reason = .feedReset) →
    s.front.attention.part = .running → s.front.attention.clear = true → s.eng.busyWaiting = true →
    let p := s.eng.places[f]
    let ended := (s.eng.recordingTake f).toList ++ p.closing.filterMap s.eng.take?
    let idle (k : Take) : Prop := (∀ i slot, s.eng.slots[i] = some slot → slot.take = k.id →
        (∀ next, s.eng.mover.state ≠ .moving i next) ∧ (∀ stage, s.eng.mover.state ≠ .checking i stage) ∧
        (∀ r, s.eng.reducer.frame = some r → r.slot ≠ i) ∧ ∀ stage, s.eng.reducer.check ≠ some (i, stage))
    let other (n : Nat) : Prop := ∀ k ∈ ended, k.id ≠ n
    ended ≠ [] →
    ((∀ k ∈ ended, idle k) ∨
      ∀ (i : SlotId) (slot : Slot), s.eng.slots[i] = some slot → other slot.take → slot.state ≠ .ready) →
    ((∀ n stage, s.eng.writer.inHand = some (n, stage) → other n ∧ ∀ k ∈ s.eng.takes, k.id = n → k.feed ≠ f) ∨
      ∀ k ∈ s.eng.takes, other k.id → k.queue = []) →
    (p.live.toList ++ p.staged.toList ++ p.closing).Nodup →
    (ended.length = 1 ∨
      ((s.eng.feedRecords f).filter fun r => !r.body.isFrame).length + ended.length ≤ 488) →
    ∃ t, exec c s = .next t ∧
      t.front.attention.answers[f] = ⟨s.front.attention.answers[f].taken + 1, some req, some .done, 0⟩ ∧
      t.eng.places[f].live = none ∧ t.eng.stagedTake f = none ∧ t.eng.places[f].deferredStop = none ∧
      (∀ k ∈ ended, k.id ∈ t.eng.places[f].ending ∧ k.id ∉ t.eng.places[f].closing ∧
        (∀ (i : SlotId) (slot : Slot), t.eng.slots[i] = some slot → slot.take = k.id → slot.state = .draining) ∧
        let fits : Prop := 32 * (k.indexWritten + 1) ≤ k.index.bytes
        (fits ∨ .sheetState k.id k.sheet .aborted ∈ t.eng.port.writes) ∧
        ∃ seq, t.eng.take? k.id = some { k with
          state := .ending
          reason := some reason
          endCapture := some s.front.refCount
          essenceStarved := false
          indexStarved := false
          refeed := none
          framesDiscarded := k.framesDiscarded + (k.queue.filter fun r => r.body.isFrame).length
          eventsDiscarded := k.eventsDiscarded + (k.queue.filter fun r => r.body.ordinary).length +
            (if fits then k.heldRejects.length else 0)
          heldRejects := if fits then [] else k.heldRejects
          queue := if fits then [⟨seq, .endRecord⟩] else [] }) ∧
      (∀ g, (s.eng.stagedTake f = some g ∨ s.eng.liveTake f = some g ∧ g.state = .armed) →
        (t.eng.take? g.id).map (·.state) = some .cancelled ∧
        .sheetState g.id g.sheet .cancelled ∈ t.eng.port.writes) ∧
      (∀ i : SlotId, (∀ slot, s.eng.slots[i] = some slot → other slot.take) →
        t.eng.slots[i] = s.eng.slots[i]))

/-- A taken ARM places the new take `t` by the feed's contexts; its state is asked behind its progress block. Without a
Live take: Live and ARMED, CONTIGUOUS taken as IMMEDIATE. Behind a Live take that is not RECORDING, or when the new take is
not IMMEDIATE or a stop is deferred already: Staged. An IMMEDIATE take behind a RECORDING Live take splits: with room in
the Closing list the Live take closes SPLIT and the new one is Live and ARMED; without room the new one is Staged and the
stop is deferred, counted in the Live take. A Staged take that stood there is SUPERSEDED, and every other take stays. A
split leaves no Staged take; where the places name `t`'s own number before it has a context, as in no state a run reaches,
that is not claimed. That the SUPERSEDED context stands until the write of that state is issued is the model's choice (log
entry 11). -/
def Obligations.ArmPlacesTake : Prop :=
  ∀ (x : Front) (f : FeedId) (t : Take) (e : Engine), (∀ k ∈ e.takes, k.id ≠ t.id) →
    (∀ g, e.stagedTake f = some g → e.places[f].live ≠ some g.id) →
    let e' := e.placeTake x f t
    let asked (st : SheetState) (k : Take) : Prop := ∃ before behind,
      e'.port.writes = before ++ .sheetState k.id k.sheet st :: behind ∧ .progress k.id k.sheet ∈ before
    let armed : Prop := asked .armed t ∧ e'.take? t.id = some { t with
      state := .armed, startMode := if t.startMode = .contiguous then .immediate else t.startMode }
    let staged : Prop := asked .staged t ∧ e'.take? t.id = some { t with state := .staged }
    let superseded : Prop := ∀ g, e.stagedTake f = some g →
      e'.take? g.id = some { g with state := .superseded } ∧ .sheetState g.id g.sheet .superseded ∈ e'.port.writes
    let stay (besides : Option Nat) : Prop := ∀ n, n ≠ t.id → some n ≠ besides →
      (∀ g, e.stagedTake f = some g → g.id ≠ n) → e'.take? n = e.take? n
    (e.liveTake f = none → e'.places[f] = { e.places[f] with live := some t.id } ∧ armed ∧
      ∀ n, n ≠ t.id → e'.take? n = e.take? n) ∧
    (∀ k, e.liveTake f = some k →
      (k.state ≠ .recording ∨ t.startMode ≠ .immediate ∨ e.places[f].deferredStop ≠ none →
        e'.places[f] = { e.places[f] with staged := some t.id } ∧ staged ∧ superseded ∧ stay none) ∧
      (k.state = .recording → t.startMode = .immediate → e.places[f].deferredStop = none →
        (4 ≤ e.places[f].closing.length →
          e'.places[f] = { e.places[f] with staged := some t.id, deferredStop := some .split } ∧ staged ∧ superseded ∧
          e'.take? k.id = some { k with deferredStops := k.deferredStops + 1 } ∧ stay (some k.id)) ∧
        (e.places[f].closing.length < 4 →
          e'.places[f].live = some t.id ∧ e'.places[f].deferredStop = none ∧
          (e.places[f].staged ≠ some t.id → e'.stagedTake f = none) ∧
          e'.places[f].closing = e.places[f].closing ++ [k.id] ∧ armed ∧ asked .closing k ∧
          (((e.feedRecords f).filter fun r => !r.body.isFrame).length < 488 →
            superseded ∧ stay (some k.id) ∧ e'.take? k.id = some { k with
              state := .closing
              reason := some .split
              endCapture := some x.refCount
              queue := k.queue ++ [⟨e.nextSeq, .endRecord⟩]
              heldRejects := []
              eventsDiscarded := k.eventsDiscarded + k.heldRejects.length }))))

/-- The record budget: an ordinary event record joins its take's queue, at the tail or just ahead of END, while the feed's
queues hold fewer than 488 records; otherwise it appears in no queue and the take counts it. Other takes stay. -/
def Obligations.RecordBudget : Prop :=
  ∀ (b : RecordBody) (k : Take) (e : Engine), e.take? k.id = some k →
    let e' := e.queueEvent k.id b
    (e.budget k.feed < 488 → ∃ r, r.body = b ∧ e'.take? k.id = some { k with
        queue := if k.queue.any (fun q => q.body.isEnd) then
          (k.queue.filter fun q => !q.body.isEnd) ++ r :: k.queue.filter fun q => q.body.isEnd
        else k.queue ++ [r] }) ∧
    (488 ≤ e.budget k.feed → e'.take? k.id = some { k with eventsDiscarded := k.eventsDiscarded + 1 }) ∧
    (∀ n, n ≠ k.id → e'.take? n = e.take? n)

/-- Byte `b` of a space lies in the extent where the lengths of the extents before it sum to at most `b`, at the offset
`b` less that sum; a byte lies in some extent exactly when it is below the space's size. -/
def Obligations.LocateFindsExtent : Prop :=
  ∀ (l : List Extent) (b : Nat),
    (∀ x off, locate l b = some (x, off) → ∃ before behind, l = before ++ x :: behind ∧
      b = (before.map Extent.bytes).sum + off ∧ off < x.bytes) ∧
    (locate l b ≠ none ↔ b < (l.map Extent.bytes).sum)

/-- The bytes the part writes: index records of 32 bytes, with kind, flags or code, and take position ahead of the kind's
fields; a sheet's progress block of 64 bytes; answer records of 16 bytes. The browse counts of END and of the progress
block are 0 for a take with browse disabled. Each field stands at its offset, little-endian, and END's four last counts
stop at 65,535. That END has no label is the model's choice (log entry 28), and so are counts written modulo their fields
(log entry 15). -/
def Obligations.WrittenLayouts : Prop :=
  ∀ (t : Take) (p : Nat),
    let has (bytes : List Byte) (fields : List (Nat × Nat × Nat)) : Prop :=
      ∀ q ∈ fields, fieldAt bytes q.1 q.2.1 = q.2.2 % 256 ^ q.2.1
    let packed (l : Label) : Nat := l.ff % 256 + 256 * (l.ss % 256 + 256 * (l.mm % 256 + 256 * (l.hh % 256)))
    let flag (b : Bool) (bit : Nat) : Nat := if b then bit else 0
    let rec4 (kind flags : Nat) (b : RecordBody) (fields : List (Nat × Nat × Nat)) : Prop :=
      (recordBytes t p b).length = 32 ∧ has (recordBytes t p b) ([(0, 1, kind), (1, 1, flags), (2, 4, p)] ++ fields)
    let tally (c : Tally) : List (Nat × Nat × Nat) :=
      [(6, 2, c.overrun), (8, 2, c.mismatch), (10, 2, c.broken), (12, 2, c.emptyFrame)]
    let reason : Nat := (t.reason.map fun r => match r with
      | .stopped => 1 | .halted => 2 | .stopTime => 3 | .stopTimecode => 4 | .frameCount => 5 | .split => 6
      | .roomExhausted => 7 | .aborted => 8 | .feedReset => 9).getD 0
    let first := t.firstTc.getD ⟨⟨0, 0, 0, 0⟩, 0⟩
    let newest := t.lastTc.getD ⟨⟨0, 0, 0, 0⟩, 0⟩
    let count (c : Option Count) : Nat := (c.map (·.toNat)).getD 0
    (∀ r : StartRecord, rec4 1 0 (.start r) [(6, 4, r.label.toNat), (10, 6, r.capture.toNat), (16, 4, packed r.tc.label),
      (20, 4, r.tc.day), (24, 2, r.geom.w), (26, 2, r.geom.h),
      (28, 1, match r.geom.rate with | .fps25 => 1 | .fps50 => 2 | .drop30 => 3 | .drop60 => 4),
      (29, 1, r.geom.factor)]) ∧
    (∀ (r : FrameRecord) (st : Settlement), r.settled = some st →
      rec4 2 (flag r.substituted 1 + flag st.padded 2 + flag st.concealed 4) (.frame r)
        [(6, 4, packed r.tc.label), (10, 4, r.tc.day), (14, 6, r.capture.toNat), (20, 2, st.concealedCount),
          (22, 1, match st.outcome with
            | .written => 1 | .skippedLate => 2 | .skippedNoRoom => 3 | .skippedMoved => 4 | .disabled => 5),
          (23, 1, st.extent), (24, 6, st.offset)]) ∧
    (∀ c missing expected, rec4 3 0 (.gap c missing expected) (tally c ++ [(14, 2, missing), (16, 4, expected)])) ∧
    (∀ c previous new, rec4 4 0 (.discontinuity c previous new) (tally c ++ [(16, 4, previous), (20, 4, new)])) ∧
    (∀ c, rec4 5 1 (.linkLoss c .dark) [(6, 6, c.toNat)] ∧ rec4 5 2 (.linkLoss c .deadline) [(6, 6, c.toNat)] ∧
      rec4 6 0 (.linkBack c) [(6, 6, c.toNat)] ∧ rec4 10 0 (.starved c) [(6, 6, c.toNat)] ∧
      rec4 11 0 (.fed c) [(6, 6, c.toNat)]) ∧
    (∀ period, rec4 7 0 (.cadenceOff period) [(6, 6, period)] ∧ rec4 8 0 (.cadenceOk period) [(6, 6, period)]) ∧
    (∀ tag (value : BitVec 48), rec4 9 0 (.metadata tag (some value)) [(6, 1, tag.toNat), (8, 6, value.toNat)] ∧
      rec4 9 8 (.metadata tag none) [(6, 1, tag.toNat), (8, 6, 0)]) ∧
    (∀ entry, rec4 12 1 (.extentRejected .essence entry) [(6, 1, entry)] ∧
      rec4 12 2 (.extentRejected .browse entry) [(6, 1, entry)] ∧
      rec4 12 3 (.extentRejected .index entry) [(6, 1, entry)]) ∧
    rec4 13 reason .endRecord [(6, 4, t.committed), (10, 4, packed newest.label), (14, 4, newest.day),
      (18, 6, count t.endCapture), (24, 2, min 65535 (if t.browseOn then t.browseWritten else 0)),
      (26, 2, min 65535 (if t.browseOn then t.browseSkipped else 0)),
      (28, 2, min 65535 t.eventsDiscarded), (30, 2, min 65535 t.framesDiscarded)] ∧
    (progressBytes t).length = 64 ∧ has (progressBytes t) [(0, 4, t.committed),
      (4, 4, if t.browseOn then t.browseWritten else 0), (8, 4, if t.browseOn then t.browseSkipped else 0),
      (12, 4, t.indexWritten), (16, 4, packed first.label), (20, 4, first.day), (24, 4, packed newest.label),
      (28, 4, newest.day), (32, 6, count t.startCapture), (38, 6, count t.endCapture), (44, 4, t.eventsDiscarded),
      (48, 4, t.framesDiscarded), (52, 2, t.deferredStops), (54, 1, reason),
      (56, 8, t.committed * (t.geom.map fun g => 4 * g.w * g.h).getD 0)] ∧
    (∀ a : Answer, (answerBytes a).length = 16 ∧ has (answerBytes a) [(0, 4, a.taken.toNat),
      (4, 1, (a.lastRequest.map fun q => match q with
        | .load => 1 | .loadCommon => 2 | .arm => 3 | .stop => 4 | .halt => 5 | .abort => 6 | .refill => 7
        | .feedReset => 8).getD 0),
      (5, 1, (a.lastResult.map fun q => match q with
        | .done => 1 | .refusedState => 2 | .refusedPending => 3 | .badSetting => 4 | .badSheet => 5 | .sheetInUse => 6
        | .linkError => 7 | .superseded => 8 | .noPulse => 9).getD 0), (6, 1, a.field)])

/-- The grant of a FRAME record: the link sends the record's 32 bytes at the take's next index record, the record leaves
the queue, the counts of the take's frames and records rise, the feed's committed count rises by one with the record's
timecode, the frame joins the feed's written frames, and the progress block and the committed count are asked. -/
def Obligations.FrameRecordGrant : Prop :=
  ∀ (t : Take) (q : Record) (r : FrameRecord) (rest : List Record) (e : Engine), e.take? t.id = some t →
    t.queue = q :: rest → q.body = .frame r →
    let e' := e.grantRecord t.id
    let outcome : Option BrowseOutcome := r.settled.map (·.outcome)
    e'.arbiter.busy = some ⟨.indexWriter,
      .write (t.index.addr (32 * t.indexWritten)) (recordBytes t r.position (.frame r)), none⟩ ∧
    e'.writer.inHand = none ∧
    e'.take? t.id = some { t with
      queue := rest
      indexWritten := t.indexWritten + 1
      committed := t.committed + 1
      browseWritten := t.browseWritten + (if outcome = some .written then 1 else 0)
      browseSkipped := t.browseSkipped +
        (if outcome = some .skippedLate ∨ outcome = some .skippedNoRoom ∨ outcome = some .skippedMoved then 1 else 0)
      lastTc := some r.tc
      firstTc := if r.position = 0 then some r.tc else t.firstTc } ∧
    e'.board[t.feed] = ⟨e.board[t.feed].committed + 1, r.tc⟩ ∧
    e'.written[t.feed] = e.written[t.feed] ++ [⟨r.slot, t.id, e.board[t.feed].committed + 1, false, false⟩] ∧
    WriteRequest.progress t.id t.sheet ∈ e'.port.writes ∧ WriteRequest.committed t.feed ∈ e'.port.writes ∧
    e'.slots = e.slots ∧ e'.held = e.held

/-- The grant of an essence burst, from byte `next` of the frame on: the link sends the frame's bytes to the end of their
4,096-byte block of essence space, or to the frame's end if that comes first. Until the frame's end the transfer goes on
behind them; at its end the essence is ISSUED, the Mover is IDLE, and a READY frame whose browse is decided settles. -/
def Obligations.EssenceBurstGrant : Prop :=
  ∀ (x : Front) (i : SlotId) (next : Nat) (slot : Slot) (t : Take) (e : Engine), e.slots[i] = some slot →
    e.take? slot.take = some t → next < t.mfb →
    let first := slot.position * t.mfb + next
    let len := min (4096 - first % 4096) (t.mfb - next)
    let e' := e.grantEssence x i next
    0 < len ∧ e'.arbiter = ⟨some ⟨.mover,
      .write (t.essence.addr first) (x.dram.readRange (i.val * 9437184 + next) len), some i⟩, .essence⟩ ∧
    (∀ j, j ≠ i → e'.slots[j] = e.slots[j]) ∧ e'.held = e.held ∧
    (next + len < t.mfb → e'.mover = { e.mover with state := .moving i (next + len) } ∧ e'.slots = e.slots ∧
      e'.takes = e.takes) ∧
    (next + len = t.mfb → e'.mover = { e.mover with state := .idle } ∧
      ((∃ o p, slot.state = .ready ∧ slot.browse = .decided o ∧ slot.placement = some p) →
        e'.slots[i] = some { slot with essence := .issued, state := .settled }) ∧
      ((∀ o, slot.browse ≠ .decided o) → e'.slots[i] = some { slot with essence := .issued } ∧ e'.takes = e.takes))

/-- The order of grants on a free link: the head of the write list; a read only when no write waits and no read is
outstanding; the Index Writer only when the Record Port does not wait; a picture writer only when neither waits: of two
that wait the one that is not the last grant, the Essence Mover when there is none; else the one that waits; else none. -/
def Obligations.ArbiterOrder : Prop :=
  ∀ (x : Front) (e : Engine), e.arbiter.busy = none →
    (∀ w rest, e.port.writes = w :: rest → e.arbiterStep x = some (e.grantWrite x w rest)) ∧
    (∀ r rest, e.port.writes = [] → e.port.reads = r :: rest → e.port.outstanding = none →
      e.arbiterStep x = some (e.grantRead x r rest)) ∧
    (e.port.writes = [] → (e.port.reads = [] ∨ e.port.outstanding ≠ none) →
      (∀ n, e.writer.inHand = some (n, .asking) → e.arbiterStep x = some (e.grantRecord n)) ∧
      ((∀ n, e.writer.inHand ≠ some (n, .asking)) →
        (∀ i next r l, e.mover.state = .moving i next → e.reducer.frame = some r → e.reducer.line = some l →
          e.arbiterStep x =
            some (if e.arbiter.lastGrant = .essence then e.grantBrowse r l else e.grantEssence x i next)) ∧
        (∀ i next, e.mover.state = .moving i next → (e.reducer.frame = none ∨ e.reducer.line = none) →
          e.arbiterStep x = some (e.grantEssence x i next)) ∧
        (∀ r l, (∀ i next, e.mover.state ≠ .moving i next) → e.reducer.frame = some r → e.reducer.line = some l →
          e.arbiterStep x = some (e.grantBrowse r l)) ∧
        ((∀ i next, e.mover.state ≠ .moving i next) → (e.reducer.frame = none ∨ e.reducer.line = none) →
          e.arbiterStep x = none)))

/-! ## Timecode -/

/-- The day number of a label: T × fps + ff under a non-drop class; less 2, or 4, for each minute before the label's
whose number is not a multiple of 10 under a drop-frame class. -/
def Obligations.DayNumberFormula : Prop :=
  ∀ l : Label,
    RateClass.fps25.dayNumber l = (3600 * l.hh + 60 * l.mm + l.ss) * 25 + l.ff ∧
    RateClass.fps50.dayNumber l = (3600 * l.hh + 60 * l.mm + l.ss) * 50 + l.ff ∧
    RateClass.drop30.dayNumber l = (3600 * l.hh + 60 * l.mm + l.ss) * 30 + l.ff -
      2 * (60 * l.hh + l.mm - (60 * l.hh + l.mm) / 10) ∧
    RateClass.drop60.dayNumber l = (3600 * l.hh + 60 * l.mm + l.ss) * 60 + l.ff -
      4 * (60 * l.hh + l.mm - (60 * l.hh + l.mm) / 10)

/-- The forward distance from `a` to `b` is (b − a) mod D, from 0 to D − 1, and `b` is at or after `a` exactly when it is
less than D / 2. -/
def Obligations.ForwardDistanceTest : Prop :=
  ∀ (c : RateClass) (a b : Nat),
    (c.forward a b : Int) = ((b : Int) - (a : Int)) % (c.dayCount : Int) ∧ c.forward a b < c.dayCount ∧
      (c.atOrAfter a b = true ↔ 2 * c.forward a b < c.dayCount)

/-- Labels and day numbers are in one-to-one correspondence: the label of a day number is valid and converts back, and
the day number of a valid label is below the day count and converts back. -/
def Obligations.LabelRoundTrip : Prop :=
  ∀ c : RateClass,
    (∀ n, n < c.dayCount → c.valid (c.label n) = true ∧ c.dayNumber (c.label n) = n) ∧
    (∀ l, c.valid l = true → c.dayNumber l < c.dayCount ∧ c.label (c.dayNumber l) = l)

/-! ## Pictures -/

/-- Concealment of a frame whose received lines are listed in ascending order: a received line keeps its bytes, and a
missing line becomes a copy of the received line with the greatest number below it, or, when there is none, of the received
line with the least number above it. -/
def Obligations.ConcealmentCopies : Prop :=
  ∀ (m : Dram) (i : SlotId) (w h : Nat) (received : List Nat), received ≠ [] → received.Pairwise (· < ·) →
    (∀ y ∈ received, ∀ j, j < 4 * w →
      (m.conceal i w h received).read (lineAddr i w y + j) = m.read (lineAddr i w y + j)) ∧
    (∀ y, y < h → y ∉ received → ∃ z ∈ received,
      ((z < y ∧ ∀ u ∈ received, u < y → u ≤ z) ∨ (y < z ∧ (∀ u ∈ received, y < u) ∧ ∀ u ∈ received, z ≤ u)) ∧
      ∀ j, j < 4 * w → (m.conceal i w h received).read (lineAddr i w y + j) = m.read (lineAddr i w z + j))

/-- With a dither period of 16 or more, every output pixel meets each of the sixteen values of the ordered matrix exactly
once in sixteen consecutive positions. -/
def Obligations.DitherCycle : Prop :=
  ∀ (period phase u v first m : Nat), period = 16 ∨ period = 32 ∨ period = 64 → m < 16 →
    ∃! j, j < 16 ∧ ditherEntry (v + ditherIndex period phase (first + j) / 4 % 4)
      (u + ditherIndex period phase (first + j) % 4) = m

/-! ## Invariants of every step -/

/-- Every step keeps card DRAM in its canonical form: rising addresses, and no cell that holds what an unlisted byte reads
as. The form and that byte are the model's choice (log entry 2). -/
def Obligations.DramStaysCanonical : Prop :=
  ∀ s t : State, s.front.dram.wf → step s = .next t → t.front.dram.wf

/-- Every step keeps every feed good: an OFF feed is DARK and holds nothing, an enabled feed is DARK exactly while its
signal is absent, LOCKED implies the has-locked mark, a candidate implies SEEKING, tallies, metadata and histories keep
their bounds. -/
def Obligations.FeedsStayGood : Prop :=
  ∀ s t : State, s.front.feedsGood → step s = .next t → t.front.feedsGood

/-- Every step keeps the held lists right: each names the slots its feed's frames hold, each once. -/
def Obligations.PoolStaysGood : Prop :=
  ∀ s t : State, s.eng.poolGood → step s = .next t → t.eng.poolGood
end

