-- ==== Sys2Proof/Laws/Vectors.lean ====
section
/-! SUPPORT. Indexed updates of vectors, and what card DRAM's operations do: a write reads back, leaves every other byte
alone, and keeps the canonical form. -/

namespace Sys2Proof.Machine

/-! ## Indexed updates -/

@[simp] theorem upd_same {α : Type} {n : Nat} (v : Vector α n) (i : Fin n) (g : α → α) : (upd v i g)[i] = g v[i] := by
  simp [upd]

theorem upd_get {α : Type} {n : Nat} (v : Vector α n) (i j : Fin n) (g : α → α) :
    (upd v i g)[j] = if i = j then g v[i] else v[j] := by
  simp only [upd, Fin.getElem_fin, Vector.getElem_set, Fin.ext_iff]

@[simp] theorem upd_other {α : Type} {n : Nat} (v : Vector α n) {i j : Fin n} (h : j ≠ i) (g : α → α) :
    (upd v i g)[j] = v[j] := by
  rw [upd_get, if_neg (Ne.symm h)]

theorem upd_eq_self {α : Type} {n : Nat} (v : Vector α n) (i : Fin n) (g : α → α) (h : g v[i] = v[i]) :
    upd v i g = v := by
  apply Vector.ext
  intro j hj
  have := upd_get v i ⟨j, hj⟩ g
  simp only [Fin.getElem_fin] at this
  rw [this]
  split <;> simp_all

theorem upd_upd {α : Type} {n : Nat} (v : Vector α n) (i : Fin n) (g h : α → α) :
    upd (upd v i g) i h = upd v i (fun a => h (g a)) := by
  simp [upd]

/-! ## Card DRAM -/

theorem Dram.mem_cellsOf {a : Nat} {bs : List Byte} {c : Host.Cell} (h : c ∈ Dram.cellsOf a bs) :
    a ≤ c.1 ∧ c.1 < a + bs.length ∧ c.2 ≠ Dram.blank := by
  induction bs generalizing a with
  | nil => simp [Dram.cellsOf] at h
  | cons b bs ih =>
    simp only [Dram.cellsOf] at h
    split at h
    · obtain ⟨h1, h2, h3⟩ := ih h
      simp only [List.length_cons]
      exact ⟨by omega, by omega, h3⟩
    · rcases List.mem_cons.mp h with rfl | h
      · simp_all
      · obtain ⟨h1, h2, h3⟩ := ih h
        simp only [List.length_cons]
        exact ⟨by omega, by omega, h3⟩

theorem Dram.pairwise_cellsOf (a : Nat) (bs : List Byte) : (Dram.cellsOf a bs).Pairwise (fun x y => x.1 < y.1) := by
  induction bs generalizing a with
  | nil => simp [Dram.cellsOf]
  | cons b bs ih =>
    simp only [Dram.cellsOf]
    split
    · exact ih _
    · refine List.pairwise_cons.mpr ⟨fun c hc => ?_, ih _⟩
      have := (Dram.mem_cellsOf hc).1
      simp only
      omega

/-- Every write keeps the canonical form of card DRAM. -/
theorem Dram.writeRange_wf {m : Dram} (h : m.wf) (a : Nat) (bytes : List Byte) : (m.writeRange a bytes).wf := by
  obtain ⟨hp, hb⟩ := h
  refine ⟨?_, ?_⟩
  · unfold Dram.writeRange
    rw [List.append_assoc, List.pairwise_append, List.pairwise_append]
    refine ⟨hp.filter _, ⟨Dram.pairwise_cellsOf a bytes, hp.filter _, ?_⟩, ?_⟩
    · intro x hx y hy
      have := (Dram.mem_cellsOf hx).2.1
      simp only [List.mem_filter, decide_eq_true_eq] at hy
      omega
    · intro x hx y hy
      simp only [List.mem_filter, decide_eq_true_eq] at hx
      rcases List.mem_append.mp hy with hy | hy
      · have := (Dram.mem_cellsOf hy).1; omega
      · simp only [List.mem_filter, decide_eq_true_eq] at hy; omega
  · intro c hc
    unfold Dram.writeRange at hc
    rcases List.mem_append.mp hc with hc | hc
    · rcases List.mem_append.mp hc with hc | hc
      · exact hb _ (List.mem_filter.mp hc).1
      · exact (Dram.mem_cellsOf hc).2.2
    · exact hb _ (List.mem_filter.mp hc).1

theorem Dram.read_append_of_not_mem {m n : Dram} {a : Nat} (h : ∀ c ∈ m, c.1 ≠ a) :
    Dram.read (m ++ n) a = Dram.read n a := by
  unfold Dram.read
  rw [List.find?_append, List.find?_eq_none.mpr (by simpa using h), Option.none_or]

theorem Dram.read_append_left {m n : Dram} {a : Nat} (h : ∀ c ∈ n, c.1 ≠ a) :
    Dram.read (m ++ n) a = Dram.read m a := by
  unfold Dram.read
  have : List.find? (fun c => c.1 == a) n = none := List.find?_eq_none.mpr (by simpa using h)
  rw [List.find?_append, this, Option.or_none]

theorem Dram.read_filter {m : Dram} {a : Nat} {p : Host.Cell → Bool} (h : ∀ c ∈ m, c.1 = a → p c = true) :
    Dram.read (m.filter p) a = Dram.read m a := by
  unfold Dram.read
  rw [List.find?_filter]
  congr 2
  induction m with
  | nil => rfl
  | cons c m ih =>
    have ih := ih fun d hd => h d (List.mem_cons_of_mem _ hd)
    have hc := h c List.mem_cons_self
    simp only [List.find?_cons, ih]
    by_cases e : c.1 = a
    · simp [e, hc e]
    · have : (c.1 == a) = false := by simpa using e
      simp [this]

/-- A byte outside the bytes written reads as before. -/
theorem Dram.read_writeRange_outside (m : Dram) (a : Nat) (bytes : List Byte) {b : Nat}
    (h : b < a ∨ a + bytes.length ≤ b) : Dram.read (m.writeRange a bytes) b = Dram.read m b := by
  have hc : ∀ c ∈ Dram.cellsOf a bytes, c.1 ≠ b := by
    intro c hc; have := Dram.mem_cellsOf hc; omega
  unfold Dram.writeRange
  rcases h with h | h
  · rw [List.append_assoc, Dram.read_append_left, Dram.read_filter]
    · intro c _ e; simp; omega
    · intro c hc'
      rcases List.mem_append.mp hc' with hc' | hc'
      · exact hc c hc'
      · simp only [List.mem_filter, decide_eq_true_eq] at hc'; omega
  · rw [Dram.read_append_of_not_mem, Dram.read_filter]
    · intro c _ e; simp; omega
    · intro c hc'
      rcases List.mem_append.mp hc' with hc' | hc'
      · simp only [List.mem_filter, decide_eq_true_eq] at hc'; omega
      · exact hc c hc'

theorem Dram.read_cellsOf (a : Nat) (bytes : List Byte) {i : Nat} (h : i < bytes.length) :
    Dram.read (Dram.cellsOf a bytes) (a + i) = bytes[i] := by
  induction bytes generalizing a i with
  | nil => simp at h
  | cons b bs ih =>
    simp only [Dram.cellsOf]
    cases i with
    | zero =>
      split
      · rename_i hb
        have : Dram.read (Dram.cellsOf (a + 1) bs) a = Dram.blank := by
          unfold Dram.read
          rw [List.find?_eq_none.mpr]
          · rfl
          · intro c hc; have := (Dram.mem_cellsOf hc).1; simp; omega
        simpa [hb] using this
      · simp [Dram.read]
    | succ i =>
      have ih := ih (a + 1) (i := i) (by simpa using h)
      have e : a + (i + 1) = a + 1 + i := by omega
      split
      · simpa [e] using ih
      · rw [List.getElem_cons_succ, ← ih, e]
        unfold Dram.read
        rw [List.find?_cons_of_neg]
        simp; omega

/-- A byte written reads back. -/
theorem Dram.read_writeRange_inside (m : Dram) (a : Nat) (bytes : List Byte) {i : Nat} (h : i < bytes.length) :
    Dram.read (m.writeRange a bytes) (a + i) = bytes[i] := by
  unfold Dram.writeRange
  rw [List.append_assoc, Dram.read_append_of_not_mem, Dram.read_append_left, Dram.read_cellsOf a bytes h]
  · intro c hc; simp only [List.mem_filter, decide_eq_true_eq] at hc; omega
  · intro c hc; simp only [List.mem_filter, decide_eq_true_eq] at hc; omega

end Sys2Proof.Machine
end

