-- ==== Sys2Proof/Laws/State.lean ====
section
/-! SUPPORT. One lemma for each field under each plain update of the state, so that no later proof unfolds a record
update. -/

namespace Sys2Proof.Machine

/-! ## State -/

@[simp] theorem State.act_pending (s : State) (g : Front → Engine → Engine) :
    (s.act g).pending = s.pending := rfl

@[simp] theorem State.act_front (s : State) (g : Front → Engine → Engine) :
    (s.act g).front = s.front := rfl

@[simp] theorem State.act_eng (s : State) (g : Front → Engine → Engine) :
    (s.act g).eng = g s.front s.eng := rfl

@[simp] theorem State.onFront_pending (s : State) (g : Front → Front) :
    (s.onFront g).pending = s.pending := rfl

@[simp] theorem State.onFront_front (s : State) (g : Front → Front) :
    (s.onFront g).front = g s.front := rfl

@[simp] theorem State.onFront_eng (s : State) (g : Front → Front) :
    (s.onFront g).eng = s.eng := rfl

@[simp] theorem State.onReceiver_pending (s : State) (f : FeedId) (g : Receiver → Receiver) :
    (s.onReceiver f g).pending = s.pending := rfl

@[simp] theorem State.onReceiver_front (s : State) (f : FeedId) (g : Receiver → Receiver) :
    (s.onReceiver f g).front = s.front.updReceiver f g := rfl

@[simp] theorem State.onReceiver_eng (s : State) (f : FeedId) (g : Receiver → Receiver) :
    (s.onReceiver f g).eng = s.eng := rfl

@[simp] theorem State.onAttention_pending (s : State) (g : Attention → Attention) :
    (s.onAttention g).pending = s.pending := rfl

@[simp] theorem State.onAttention_eng (s : State) (g : Attention → Attention) :
    (s.onAttention g).eng = s.eng := rfl

@[simp] theorem State.onAttention_dram (s : State) (g : Attention → Attention) :
    (s.onAttention g).front.dram = s.front.dram := rfl

@[simp] theorem State.onAttention_refCount (s : State) (g : Attention → Attention) :
    (s.onAttention g).front.refCount = s.front.refCount := rfl

@[simp] theorem State.onAttention_refLatch (s : State) (g : Attention → Attention) :
    (s.onAttention g).front.refLatch = s.front.refLatch := rfl

@[simp] theorem State.onAttention_pendingLoad (s : State) (g : Attention → Attention) :
    (s.onAttention g).front.pendingLoad = s.front.pendingLoad := rfl

@[simp] theorem State.onAttention_pageBase (s : State) (g : Attention → Attention) :
    (s.onAttention g).front.pageBase = s.front.pageBase := rfl

@[simp] theorem State.onAttention_noticeMask (s : State) (g : Attention → Attention) :
    (s.onAttention g).front.noticeMask = s.front.noticeMask := rfl

@[simp] theorem State.onAttention_flags (s : State) (g : Attention → Attention) :
    (s.onAttention g).front.flags = s.front.flags := rfl

@[simp] theorem State.onAttention_receivers (s : State) (g : Attention → Attention) :
    (s.onAttention g).front.receivers = s.front.receivers := rfl

@[simp] theorem State.onAttention_timers (s : State) (g : Attention → Attention) :
    (s.onAttention g).front.timers = s.front.timers := rfl

@[simp] theorem State.onAttention_reduce (s : State) (g : Attention → Attention) :
    (s.onAttention g).front.reduce = s.front.reduce := rfl

@[simp] theorem State.onAttention_attention (s : State) (g : Attention → Attention) :
    (s.onAttention g).front.attention = g s.front.attention := rfl

@[simp] theorem State.onAttention_readData (s : State) (g : Attention → Attention) :
    (s.onAttention g).front.readData = s.front.readData := rfl

@[simp] theorem State.onAttention_delivered (s : State) (g : Attention → Attention) :
    (s.onAttention g).front.delivered = s.front.delivered := rfl

@[simp] theorem State.onAttention_freeCount (s : State) (g : Attention → Attention) :
    (s.onAttention g).front.freeCount = s.front.freeCount := rfl

@[simp] theorem State.onFlags_pending (s : State) (g : StatusFlags → StatusFlags) :
    (s.onFlags g).pending = s.pending := rfl

@[simp] theorem State.onFlags_eng (s : State) (g : StatusFlags → StatusFlags) :
    (s.onFlags g).eng = s.eng := rfl

@[simp] theorem State.onFlags_dram (s : State) (g : StatusFlags → StatusFlags) :
    (s.onFlags g).front.dram = s.front.dram := rfl

@[simp] theorem State.onFlags_refCount (s : State) (g : StatusFlags → StatusFlags) :
    (s.onFlags g).front.refCount = s.front.refCount := rfl

@[simp] theorem State.onFlags_refLatch (s : State) (g : StatusFlags → StatusFlags) :
    (s.onFlags g).front.refLatch = s.front.refLatch := rfl

@[simp] theorem State.onFlags_pendingLoad (s : State) (g : StatusFlags → StatusFlags) :
    (s.onFlags g).front.pendingLoad = s.front.pendingLoad := rfl

@[simp] theorem State.onFlags_pageBase (s : State) (g : StatusFlags → StatusFlags) :
    (s.onFlags g).front.pageBase = s.front.pageBase := rfl

@[simp] theorem State.onFlags_noticeMask (s : State) (g : StatusFlags → StatusFlags) :
    (s.onFlags g).front.noticeMask = s.front.noticeMask := rfl

@[simp] theorem State.onFlags_flags (s : State) (g : StatusFlags → StatusFlags) :
    (s.onFlags g).front.flags = g s.front.flags := rfl

@[simp] theorem State.onFlags_receivers (s : State) (g : StatusFlags → StatusFlags) :
    (s.onFlags g).front.receivers = s.front.receivers := rfl

@[simp] theorem State.onFlags_timers (s : State) (g : StatusFlags → StatusFlags) :
    (s.onFlags g).front.timers = s.front.timers := rfl

@[simp] theorem State.onFlags_reduce (s : State) (g : StatusFlags → StatusFlags) :
    (s.onFlags g).front.reduce = s.front.reduce := rfl

@[simp] theorem State.onFlags_attention (s : State) (g : StatusFlags → StatusFlags) :
    (s.onFlags g).front.attention = s.front.attention := rfl

@[simp] theorem State.onFlags_readData (s : State) (g : StatusFlags → StatusFlags) :
    (s.onFlags g).front.readData = s.front.readData := rfl

@[simp] theorem State.onFlags_delivered (s : State) (g : StatusFlags → StatusFlags) :
    (s.onFlags g).front.delivered = s.front.delivered := rfl

@[simp] theorem State.onFlags_freeCount (s : State) (g : StatusFlags → StatusFlags) :
    (s.onFlags g).front.freeCount = s.front.freeCount := rfl

/-! ## Front -/

@[simp] theorem Front.updReceiver_dram (x : Front) (f : FeedId) (g : Receiver → Receiver) :
    (x.updReceiver f g).dram = x.dram := rfl

@[simp] theorem Front.updReceiver_refCount (x : Front) (f : FeedId) (g : Receiver → Receiver) :
    (x.updReceiver f g).refCount = x.refCount := rfl

@[simp] theorem Front.updReceiver_refLatch (x : Front) (f : FeedId) (g : Receiver → Receiver) :
    (x.updReceiver f g).refLatch = x.refLatch := rfl

@[simp] theorem Front.updReceiver_pendingLoad (x : Front) (f : FeedId) (g : Receiver → Receiver) :
    (x.updReceiver f g).pendingLoad = x.pendingLoad := rfl

@[simp] theorem Front.updReceiver_pageBase (x : Front) (f : FeedId) (g : Receiver → Receiver) :
    (x.updReceiver f g).pageBase = x.pageBase := rfl

@[simp] theorem Front.updReceiver_noticeMask (x : Front) (f : FeedId) (g : Receiver → Receiver) :
    (x.updReceiver f g).noticeMask = x.noticeMask := rfl

@[simp] theorem Front.updReceiver_flags (x : Front) (f : FeedId) (g : Receiver → Receiver) :
    (x.updReceiver f g).flags = x.flags := rfl

@[simp] theorem Front.updReceiver_receivers (x : Front) (f : FeedId) (g : Receiver → Receiver) :
    (x.updReceiver f g).receivers = upd x.receivers f g := rfl

@[simp] theorem Front.updReceiver_timers (x : Front) (f : FeedId) (g : Receiver → Receiver) :
    (x.updReceiver f g).timers = x.timers := rfl

@[simp] theorem Front.updReceiver_reduce (x : Front) (f : FeedId) (g : Receiver → Receiver) :
    (x.updReceiver f g).reduce = x.reduce := rfl

@[simp] theorem Front.updReceiver_attention (x : Front) (f : FeedId) (g : Receiver → Receiver) :
    (x.updReceiver f g).attention = x.attention := rfl

@[simp] theorem Front.updReceiver_readData (x : Front) (f : FeedId) (g : Receiver → Receiver) :
    (x.updReceiver f g).readData = x.readData := rfl

@[simp] theorem Front.updReceiver_delivered (x : Front) (f : FeedId) (g : Receiver → Receiver) :
    (x.updReceiver f g).delivered = x.delivered := rfl

@[simp] theorem Front.updReceiver_freeCount (x : Front) (f : FeedId) (g : Receiver → Receiver) :
    (x.updReceiver f g).freeCount = x.freeCount := rfl

@[simp] theorem Front.updTimer_dram (x : Front) (f : FeedId) (g : FeedTimer → FeedTimer) :
    (x.updTimer f g).dram = x.dram := rfl

@[simp] theorem Front.updTimer_refCount (x : Front) (f : FeedId) (g : FeedTimer → FeedTimer) :
    (x.updTimer f g).refCount = x.refCount := rfl

@[simp] theorem Front.updTimer_refLatch (x : Front) (f : FeedId) (g : FeedTimer → FeedTimer) :
    (x.updTimer f g).refLatch = x.refLatch := rfl

@[simp] theorem Front.updTimer_pendingLoad (x : Front) (f : FeedId) (g : FeedTimer → FeedTimer) :
    (x.updTimer f g).pendingLoad = x.pendingLoad := rfl

@[simp] theorem Front.updTimer_pageBase (x : Front) (f : FeedId) (g : FeedTimer → FeedTimer) :
    (x.updTimer f g).pageBase = x.pageBase := rfl

@[simp] theorem Front.updTimer_noticeMask (x : Front) (f : FeedId) (g : FeedTimer → FeedTimer) :
    (x.updTimer f g).noticeMask = x.noticeMask := rfl

@[simp] theorem Front.updTimer_flags (x : Front) (f : FeedId) (g : FeedTimer → FeedTimer) :
    (x.updTimer f g).flags = x.flags := rfl

@[simp] theorem Front.updTimer_receivers (x : Front) (f : FeedId) (g : FeedTimer → FeedTimer) :
    (x.updTimer f g).receivers = x.receivers := rfl

@[simp] theorem Front.updTimer_timers (x : Front) (f : FeedId) (g : FeedTimer → FeedTimer) :
    (x.updTimer f g).timers = upd x.timers f g := rfl

@[simp] theorem Front.updTimer_reduce (x : Front) (f : FeedId) (g : FeedTimer → FeedTimer) :
    (x.updTimer f g).reduce = x.reduce := rfl

@[simp] theorem Front.updTimer_attention (x : Front) (f : FeedId) (g : FeedTimer → FeedTimer) :
    (x.updTimer f g).attention = x.attention := rfl

@[simp] theorem Front.updTimer_readData (x : Front) (f : FeedId) (g : FeedTimer → FeedTimer) :
    (x.updTimer f g).readData = x.readData := rfl

@[simp] theorem Front.updTimer_delivered (x : Front) (f : FeedId) (g : FeedTimer → FeedTimer) :
    (x.updTimer f g).delivered = x.delivered := rfl

@[simp] theorem Front.updTimer_freeCount (x : Front) (f : FeedId) (g : FeedTimer → FeedTimer) :
    (x.updTimer f g).freeCount = x.freeCount := rfl

/-! ## Engine -/

@[simp] theorem Engine.updTake_takes (e : Engine) (t : Nat) (g : Take → Take) :
    (e.updTake t g).takes = e.takes.map fun k => if k.id = t then g k else k := rfl

@[simp] theorem Engine.updTake_nextId (e : Engine) (t : Nat) (g : Take → Take) :
    (e.updTake t g).nextId = e.nextId := rfl

@[simp] theorem Engine.updTake_nextSeq (e : Engine) (t : Nat) (g : Take → Take) :
    (e.updTake t g).nextSeq = e.nextSeq := rfl

@[simp] theorem Engine.updTake_places (e : Engine) (t : Nat) (g : Take → Take) :
    (e.updTake t g).places = e.places := rfl

@[simp] theorem Engine.updTake_slots (e : Engine) (t : Nat) (g : Take → Take) :
    (e.updTake t g).slots = e.slots := rfl

@[simp] theorem Engine.updTake_held (e : Engine) (t : Nat) (g : Take → Take) :
    (e.updTake t g).held = e.held := rfl

@[simp] theorem Engine.updTake_opened (e : Engine) (t : Nat) (g : Take → Take) :
    (e.updTake t g).opened = e.opened := rfl

@[simp] theorem Engine.updTake_written (e : Engine) (t : Nat) (g : Take → Take) :
    (e.updTake t g).written = e.written := rfl

@[simp] theorem Engine.updTake_board (e : Engine) (t : Nat) (g : Take → Take) :
    (e.updTake t g).board = e.board := rfl

@[simp] theorem Engine.updTake_mover (e : Engine) (t : Nat) (g : Take → Take) :
    (e.updTake t g).mover = e.mover := rfl

@[simp] theorem Engine.updTake_reducer (e : Engine) (t : Nat) (g : Take → Take) :
    (e.updTake t g).reducer = e.reducer := rfl

@[simp] theorem Engine.updTake_writer (e : Engine) (t : Nat) (g : Take → Take) :
    (e.updTake t g).writer = e.writer := rfl

@[simp] theorem Engine.updTake_port (e : Engine) (t : Nat) (g : Take → Take) :
    (e.updTake t g).port = e.port := rfl

@[simp] theorem Engine.updTake_arbiter (e : Engine) (t : Nat) (g : Take → Take) :
    (e.updTake t g).arbiter = e.arbiter := rfl

@[simp] theorem Engine.updTake_notices (e : Engine) (t : Nat) (g : Take → Take) :
    (e.updTake t g).notices = e.notices := rfl

@[simp] theorem Engine.updPlaces_takes (e : Engine) (f : FeedId) (g : Places → Places) :
    (e.updPlaces f g).takes = e.takes := rfl

@[simp] theorem Engine.updPlaces_nextId (e : Engine) (f : FeedId) (g : Places → Places) :
    (e.updPlaces f g).nextId = e.nextId := rfl

@[simp] theorem Engine.updPlaces_nextSeq (e : Engine) (f : FeedId) (g : Places → Places) :
    (e.updPlaces f g).nextSeq = e.nextSeq := rfl

@[simp] theorem Engine.updPlaces_places (e : Engine) (f : FeedId) (g : Places → Places) :
    (e.updPlaces f g).places = upd e.places f g := rfl

@[simp] theorem Engine.updPlaces_slots (e : Engine) (f : FeedId) (g : Places → Places) :
    (e.updPlaces f g).slots = e.slots := rfl

@[simp] theorem Engine.updPlaces_held (e : Engine) (f : FeedId) (g : Places → Places) :
    (e.updPlaces f g).held = e.held := rfl

@[simp] theorem Engine.updPlaces_opened (e : Engine) (f : FeedId) (g : Places → Places) :
    (e.updPlaces f g).opened = e.opened := rfl

@[simp] theorem Engine.updPlaces_written (e : Engine) (f : FeedId) (g : Places → Places) :
    (e.updPlaces f g).written = e.written := rfl

@[simp] theorem Engine.updPlaces_board (e : Engine) (f : FeedId) (g : Places → Places) :
    (e.updPlaces f g).board = e.board := rfl

@[simp] theorem Engine.updPlaces_mover (e : Engine) (f : FeedId) (g : Places → Places) :
    (e.updPlaces f g).mover = e.mover := rfl

@[simp] theorem Engine.updPlaces_reducer (e : Engine) (f : FeedId) (g : Places → Places) :
    (e.updPlaces f g).reducer = e.reducer := rfl

@[simp] theorem Engine.updPlaces_writer (e : Engine) (f : FeedId) (g : Places → Places) :
    (e.updPlaces f g).writer = e.writer := rfl

@[simp] theorem Engine.updPlaces_port (e : Engine) (f : FeedId) (g : Places → Places) :
    (e.updPlaces f g).port = e.port := rfl

@[simp] theorem Engine.updPlaces_arbiter (e : Engine) (f : FeedId) (g : Places → Places) :
    (e.updPlaces f g).arbiter = e.arbiter := rfl

@[simp] theorem Engine.updPlaces_notices (e : Engine) (f : FeedId) (g : Places → Places) :
    (e.updPlaces f g).notices = e.notices := rfl

@[simp] theorem Engine.updSlot_takes (e : Engine) (i : SlotId) (g : Slot → Slot) :
    (e.updSlot i g).takes = e.takes := rfl

@[simp] theorem Engine.updSlot_nextId (e : Engine) (i : SlotId) (g : Slot → Slot) :
    (e.updSlot i g).nextId = e.nextId := rfl

@[simp] theorem Engine.updSlot_nextSeq (e : Engine) (i : SlotId) (g : Slot → Slot) :
    (e.updSlot i g).nextSeq = e.nextSeq := rfl

@[simp] theorem Engine.updSlot_places (e : Engine) (i : SlotId) (g : Slot → Slot) :
    (e.updSlot i g).places = e.places := rfl

@[simp] theorem Engine.updSlot_slots (e : Engine) (i : SlotId) (g : Slot → Slot) :
    (e.updSlot i g).slots = upd e.slots i (Option.map g) := rfl

@[simp] theorem Engine.updSlot_held (e : Engine) (i : SlotId) (g : Slot → Slot) :
    (e.updSlot i g).held = e.held := rfl

@[simp] theorem Engine.updSlot_opened (e : Engine) (i : SlotId) (g : Slot → Slot) :
    (e.updSlot i g).opened = e.opened := rfl

@[simp] theorem Engine.updSlot_written (e : Engine) (i : SlotId) (g : Slot → Slot) :
    (e.updSlot i g).written = e.written := rfl

@[simp] theorem Engine.updSlot_board (e : Engine) (i : SlotId) (g : Slot → Slot) :
    (e.updSlot i g).board = e.board := rfl

@[simp] theorem Engine.updSlot_mover (e : Engine) (i : SlotId) (g : Slot → Slot) :
    (e.updSlot i g).mover = e.mover := rfl

@[simp] theorem Engine.updSlot_reducer (e : Engine) (i : SlotId) (g : Slot → Slot) :
    (e.updSlot i g).reducer = e.reducer := rfl

@[simp] theorem Engine.updSlot_writer (e : Engine) (i : SlotId) (g : Slot → Slot) :
    (e.updSlot i g).writer = e.writer := rfl

@[simp] theorem Engine.updSlot_port (e : Engine) (i : SlotId) (g : Slot → Slot) :
    (e.updSlot i g).port = e.port := rfl

@[simp] theorem Engine.updSlot_arbiter (e : Engine) (i : SlotId) (g : Slot → Slot) :
    (e.updSlot i g).arbiter = e.arbiter := rfl

@[simp] theorem Engine.updSlot_notices (e : Engine) (i : SlotId) (g : Slot → Slot) :
    (e.updSlot i g).notices = e.notices := rfl

@[simp] theorem Engine.askRead_takes (e : Engine) (r : ReadRequest) :
    (e.askRead r).takes = e.takes := rfl

@[simp] theorem Engine.askRead_nextId (e : Engine) (r : ReadRequest) :
    (e.askRead r).nextId = e.nextId := rfl

@[simp] theorem Engine.askRead_nextSeq (e : Engine) (r : ReadRequest) :
    (e.askRead r).nextSeq = e.nextSeq := rfl

@[simp] theorem Engine.askRead_places (e : Engine) (r : ReadRequest) :
    (e.askRead r).places = e.places := rfl

@[simp] theorem Engine.askRead_slots (e : Engine) (r : ReadRequest) :
    (e.askRead r).slots = e.slots := rfl

@[simp] theorem Engine.askRead_held (e : Engine) (r : ReadRequest) :
    (e.askRead r).held = e.held := rfl

@[simp] theorem Engine.askRead_opened (e : Engine) (r : ReadRequest) :
    (e.askRead r).opened = e.opened := rfl

@[simp] theorem Engine.askRead_written (e : Engine) (r : ReadRequest) :
    (e.askRead r).written = e.written := rfl

@[simp] theorem Engine.askRead_board (e : Engine) (r : ReadRequest) :
    (e.askRead r).board = e.board := rfl

@[simp] theorem Engine.askRead_mover (e : Engine) (r : ReadRequest) :
    (e.askRead r).mover = e.mover := rfl

@[simp] theorem Engine.askRead_reducer (e : Engine) (r : ReadRequest) :
    (e.askRead r).reducer = e.reducer := rfl

@[simp] theorem Engine.askRead_writer (e : Engine) (r : ReadRequest) :
    (e.askRead r).writer = e.writer := rfl

@[simp] theorem Engine.askRead_port (e : Engine) (r : ReadRequest) :
    (e.askRead r).port = { e.port with reads := e.port.reads ++ [r] } := rfl

@[simp] theorem Engine.askRead_arbiter (e : Engine) (r : ReadRequest) :
    (e.askRead r).arbiter = e.arbiter := rfl

@[simp] theorem Engine.askRead_notices (e : Engine) (r : ReadRequest) :
    (e.askRead r).notices = e.notices := rfl

@[simp] theorem Engine.withdrawReads_takes (e : Engine) (p : ReadRequest → Bool) :
    (e.withdrawReads p).takes = e.takes := rfl

@[simp] theorem Engine.withdrawReads_nextId (e : Engine) (p : ReadRequest → Bool) :
    (e.withdrawReads p).nextId = e.nextId := rfl

@[simp] theorem Engine.withdrawReads_nextSeq (e : Engine) (p : ReadRequest → Bool) :
    (e.withdrawReads p).nextSeq = e.nextSeq := rfl

@[simp] theorem Engine.withdrawReads_places (e : Engine) (p : ReadRequest → Bool) :
    (e.withdrawReads p).places = e.places := rfl

@[simp] theorem Engine.withdrawReads_slots (e : Engine) (p : ReadRequest → Bool) :
    (e.withdrawReads p).slots = e.slots := rfl

@[simp] theorem Engine.withdrawReads_held (e : Engine) (p : ReadRequest → Bool) :
    (e.withdrawReads p).held = e.held := rfl

@[simp] theorem Engine.withdrawReads_opened (e : Engine) (p : ReadRequest → Bool) :
    (e.withdrawReads p).opened = e.opened := rfl

@[simp] theorem Engine.withdrawReads_written (e : Engine) (p : ReadRequest → Bool) :
    (e.withdrawReads p).written = e.written := rfl

@[simp] theorem Engine.withdrawReads_board (e : Engine) (p : ReadRequest → Bool) :
    (e.withdrawReads p).board = e.board := rfl

@[simp] theorem Engine.withdrawReads_mover (e : Engine) (p : ReadRequest → Bool) :
    (e.withdrawReads p).mover = e.mover := rfl

@[simp] theorem Engine.withdrawReads_reducer (e : Engine) (p : ReadRequest → Bool) :
    (e.withdrawReads p).reducer = e.reducer := rfl

@[simp] theorem Engine.withdrawReads_writer (e : Engine) (p : ReadRequest → Bool) :
    (e.withdrawReads p).writer = e.writer := rfl

@[simp] theorem Engine.withdrawReads_arbiter (e : Engine) (p : ReadRequest → Bool) :
    (e.withdrawReads p).arbiter = e.arbiter := rfl

@[simp] theorem Engine.withdrawReads_notices (e : Engine) (p : ReadRequest → Bool) :
    (e.withdrawReads p).notices = e.notices := rfl

@[simp] theorem Engine.setMover_takes (e : Engine) (m : MoverState) :
    (e.setMover m).takes = e.takes := rfl

@[simp] theorem Engine.setMover_nextId (e : Engine) (m : MoverState) :
    (e.setMover m).nextId = e.nextId := rfl

@[simp] theorem Engine.setMover_nextSeq (e : Engine) (m : MoverState) :
    (e.setMover m).nextSeq = e.nextSeq := rfl

@[simp] theorem Engine.setMover_places (e : Engine) (m : MoverState) :
    (e.setMover m).places = e.places := rfl

@[simp] theorem Engine.setMover_slots (e : Engine) (m : MoverState) :
    (e.setMover m).slots = e.slots := rfl

@[simp] theorem Engine.setMover_held (e : Engine) (m : MoverState) :
    (e.setMover m).held = e.held := rfl

@[simp] theorem Engine.setMover_opened (e : Engine) (m : MoverState) :
    (e.setMover m).opened = e.opened := rfl

@[simp] theorem Engine.setMover_written (e : Engine) (m : MoverState) :
    (e.setMover m).written = e.written := rfl

@[simp] theorem Engine.setMover_board (e : Engine) (m : MoverState) :
    (e.setMover m).board = e.board := rfl

@[simp] theorem Engine.setMover_mover (e : Engine) (m : MoverState) :
    (e.setMover m).mover = { e.mover with state := m } := rfl

@[simp] theorem Engine.setMover_reducer (e : Engine) (m : MoverState) :
    (e.setMover m).reducer = e.reducer := rfl

@[simp] theorem Engine.setMover_writer (e : Engine) (m : MoverState) :
    (e.setMover m).writer = e.writer := rfl

@[simp] theorem Engine.setMover_port (e : Engine) (m : MoverState) :
    (e.setMover m).port = e.port := rfl

@[simp] theorem Engine.setMover_arbiter (e : Engine) (m : MoverState) :
    (e.setMover m).arbiter = e.arbiter := rfl

@[simp] theorem Engine.setMover_notices (e : Engine) (m : MoverState) :
    (e.setMover m).notices = e.notices := rfl

@[simp] theorem Engine.setCheck_takes (e : Engine) (c : Option (SlotId × CheckStage)) :
    (e.setCheck c).takes = e.takes := rfl

@[simp] theorem Engine.setCheck_nextId (e : Engine) (c : Option (SlotId × CheckStage)) :
    (e.setCheck c).nextId = e.nextId := rfl

@[simp] theorem Engine.setCheck_nextSeq (e : Engine) (c : Option (SlotId × CheckStage)) :
    (e.setCheck c).nextSeq = e.nextSeq := rfl

@[simp] theorem Engine.setCheck_places (e : Engine) (c : Option (SlotId × CheckStage)) :
    (e.setCheck c).places = e.places := rfl

@[simp] theorem Engine.setCheck_slots (e : Engine) (c : Option (SlotId × CheckStage)) :
    (e.setCheck c).slots = e.slots := rfl

@[simp] theorem Engine.setCheck_held (e : Engine) (c : Option (SlotId × CheckStage)) :
    (e.setCheck c).held = e.held := rfl

@[simp] theorem Engine.setCheck_opened (e : Engine) (c : Option (SlotId × CheckStage)) :
    (e.setCheck c).opened = e.opened := rfl

@[simp] theorem Engine.setCheck_written (e : Engine) (c : Option (SlotId × CheckStage)) :
    (e.setCheck c).written = e.written := rfl

@[simp] theorem Engine.setCheck_board (e : Engine) (c : Option (SlotId × CheckStage)) :
    (e.setCheck c).board = e.board := rfl

@[simp] theorem Engine.setCheck_mover (e : Engine) (c : Option (SlotId × CheckStage)) :
    (e.setCheck c).mover = e.mover := rfl

@[simp] theorem Engine.setCheck_reducer (e : Engine) (c : Option (SlotId × CheckStage)) :
    (e.setCheck c).reducer = { e.reducer with check := c } := rfl

@[simp] theorem Engine.setCheck_writer (e : Engine) (c : Option (SlotId × CheckStage)) :
    (e.setCheck c).writer = e.writer := rfl

@[simp] theorem Engine.setCheck_port (e : Engine) (c : Option (SlotId × CheckStage)) :
    (e.setCheck c).port = e.port := rfl

@[simp] theorem Engine.setCheck_arbiter (e : Engine) (c : Option (SlotId × CheckStage)) :
    (e.setCheck c).arbiter = e.arbiter := rfl

@[simp] theorem Engine.setCheck_notices (e : Engine) (c : Option (SlotId × CheckStage)) :
    (e.setCheck c).notices = e.notices := rfl

@[simp] theorem Engine.setInHand_takes (e : Engine) (h : Option (Nat × WriterStage)) :
    (e.setInHand h).takes = e.takes := rfl

@[simp] theorem Engine.setInHand_nextId (e : Engine) (h : Option (Nat × WriterStage)) :
    (e.setInHand h).nextId = e.nextId := rfl

@[simp] theorem Engine.setInHand_nextSeq (e : Engine) (h : Option (Nat × WriterStage)) :
    (e.setInHand h).nextSeq = e.nextSeq := rfl

@[simp] theorem Engine.setInHand_places (e : Engine) (h : Option (Nat × WriterStage)) :
    (e.setInHand h).places = e.places := rfl

@[simp] theorem Engine.setInHand_slots (e : Engine) (h : Option (Nat × WriterStage)) :
    (e.setInHand h).slots = e.slots := rfl

@[simp] theorem Engine.setInHand_held (e : Engine) (h : Option (Nat × WriterStage)) :
    (e.setInHand h).held = e.held := rfl

@[simp] theorem Engine.setInHand_opened (e : Engine) (h : Option (Nat × WriterStage)) :
    (e.setInHand h).opened = e.opened := rfl

@[simp] theorem Engine.setInHand_written (e : Engine) (h : Option (Nat × WriterStage)) :
    (e.setInHand h).written = e.written := rfl

@[simp] theorem Engine.setInHand_board (e : Engine) (h : Option (Nat × WriterStage)) :
    (e.setInHand h).board = e.board := rfl

@[simp] theorem Engine.setInHand_mover (e : Engine) (h : Option (Nat × WriterStage)) :
    (e.setInHand h).mover = e.mover := rfl

@[simp] theorem Engine.setInHand_reducer (e : Engine) (h : Option (Nat × WriterStage)) :
    (e.setInHand h).reducer = e.reducer := rfl

@[simp] theorem Engine.setInHand_writer (e : Engine) (h : Option (Nat × WriterStage)) :
    (e.setInHand h).writer = { e.writer with inHand := h } := rfl

@[simp] theorem Engine.setInHand_port (e : Engine) (h : Option (Nat × WriterStage)) :
    (e.setInHand h).port = e.port := rfl

@[simp] theorem Engine.setInHand_arbiter (e : Engine) (h : Option (Nat × WriterStage)) :
    (e.setInHand h).arbiter = e.arbiter := rfl

@[simp] theorem Engine.setInHand_notices (e : Engine) (h : Option (Nat × WriterStage)) :
    (e.setInHand h).notices = e.notices := rfl

@[simp] theorem Engine.setBusy_takes (e : Engine) (q : Requester) (p : Payload) (i : Option SlotId) :
    (e.setBusy q p i).takes = e.takes := rfl

@[simp] theorem Engine.setBusy_nextId (e : Engine) (q : Requester) (p : Payload) (i : Option SlotId) :
    (e.setBusy q p i).nextId = e.nextId := rfl

@[simp] theorem Engine.setBusy_nextSeq (e : Engine) (q : Requester) (p : Payload) (i : Option SlotId) :
    (e.setBusy q p i).nextSeq = e.nextSeq := rfl

@[simp] theorem Engine.setBusy_places (e : Engine) (q : Requester) (p : Payload) (i : Option SlotId) :
    (e.setBusy q p i).places = e.places := rfl

@[simp] theorem Engine.setBusy_slots (e : Engine) (q : Requester) (p : Payload) (i : Option SlotId) :
    (e.setBusy q p i).slots = e.slots := rfl

@[simp] theorem Engine.setBusy_held (e : Engine) (q : Requester) (p : Payload) (i : Option SlotId) :
    (e.setBusy q p i).held = e.held := rfl

@[simp] theorem Engine.setBusy_opened (e : Engine) (q : Requester) (p : Payload) (i : Option SlotId) :
    (e.setBusy q p i).opened = e.opened := rfl

@[simp] theorem Engine.setBusy_written (e : Engine) (q : Requester) (p : Payload) (i : Option SlotId) :
    (e.setBusy q p i).written = e.written := rfl

@[simp] theorem Engine.setBusy_board (e : Engine) (q : Requester) (p : Payload) (i : Option SlotId) :
    (e.setBusy q p i).board = e.board := rfl

@[simp] theorem Engine.setBusy_mover (e : Engine) (q : Requester) (p : Payload) (i : Option SlotId) :
    (e.setBusy q p i).mover = e.mover := rfl

@[simp] theorem Engine.setBusy_reducer (e : Engine) (q : Requester) (p : Payload) (i : Option SlotId) :
    (e.setBusy q p i).reducer = e.reducer := rfl

@[simp] theorem Engine.setBusy_writer (e : Engine) (q : Requester) (p : Payload) (i : Option SlotId) :
    (e.setBusy q p i).writer = e.writer := rfl

@[simp] theorem Engine.setBusy_port (e : Engine) (q : Requester) (p : Payload) (i : Option SlotId) :
    (e.setBusy q p i).port = e.port := rfl

@[simp] theorem Engine.setBusy_arbiter (e : Engine) (q : Requester) (p : Payload) (i : Option SlotId) :
    (e.setBusy q p i).arbiter = { e.arbiter with busy := some ⟨q, p, i⟩ } := rfl

@[simp] theorem Engine.setBusy_notices (e : Engine) (q : Requester) (p : Payload) (i : Option SlotId) :
    (e.setBusy q p i).notices = e.notices := rfl

@[simp] theorem Engine.bumpSeq_takes (e : Engine) :
    e.bumpSeq.takes = e.takes := rfl

@[simp] theorem Engine.bumpSeq_nextId (e : Engine) :
    e.bumpSeq.nextId = e.nextId := rfl

@[simp] theorem Engine.bumpSeq_nextSeq (e : Engine) :
    e.bumpSeq.nextSeq = e.nextSeq + 1 := rfl

@[simp] theorem Engine.bumpSeq_places (e : Engine) :
    e.bumpSeq.places = e.places := rfl

@[simp] theorem Engine.bumpSeq_slots (e : Engine) :
    e.bumpSeq.slots = e.slots := rfl

@[simp] theorem Engine.bumpSeq_held (e : Engine) :
    e.bumpSeq.held = e.held := rfl

@[simp] theorem Engine.bumpSeq_opened (e : Engine) :
    e.bumpSeq.opened = e.opened := rfl

@[simp] theorem Engine.bumpSeq_written (e : Engine) :
    e.bumpSeq.written = e.written := rfl

@[simp] theorem Engine.bumpSeq_board (e : Engine) :
    e.bumpSeq.board = e.board := rfl

@[simp] theorem Engine.bumpSeq_mover (e : Engine) :
    e.bumpSeq.mover = e.mover := rfl

@[simp] theorem Engine.bumpSeq_reducer (e : Engine) :
    e.bumpSeq.reducer = e.reducer := rfl

@[simp] theorem Engine.bumpSeq_writer (e : Engine) :
    e.bumpSeq.writer = e.writer := rfl

@[simp] theorem Engine.bumpSeq_port (e : Engine) :
    e.bumpSeq.port = e.port := rfl

@[simp] theorem Engine.bumpSeq_arbiter (e : Engine) :
    e.bumpSeq.arbiter = e.arbiter := rfl

@[simp] theorem Engine.bumpSeq_notices (e : Engine) :
    e.bumpSeq.notices = e.notices := rfl

@[simp] theorem Engine.addTake_takes (e : Engine) (t : Take) :
    (e.addTake t).takes = e.takes ++ [t] := rfl

@[simp] theorem Engine.addTake_nextId (e : Engine) (t : Take) :
    (e.addTake t).nextId = e.nextId + 1 := rfl

@[simp] theorem Engine.addTake_nextSeq (e : Engine) (t : Take) :
    (e.addTake t).nextSeq = e.nextSeq := rfl

@[simp] theorem Engine.addTake_places (e : Engine) (t : Take) :
    (e.addTake t).places = e.places := rfl

@[simp] theorem Engine.addTake_slots (e : Engine) (t : Take) :
    (e.addTake t).slots = e.slots := rfl

@[simp] theorem Engine.addTake_held (e : Engine) (t : Take) :
    (e.addTake t).held = e.held := rfl

@[simp] theorem Engine.addTake_opened (e : Engine) (t : Take) :
    (e.addTake t).opened = e.opened := rfl

@[simp] theorem Engine.addTake_written (e : Engine) (t : Take) :
    (e.addTake t).written = e.written := rfl

@[simp] theorem Engine.addTake_board (e : Engine) (t : Take) :
    (e.addTake t).board = e.board := rfl

@[simp] theorem Engine.addTake_mover (e : Engine) (t : Take) :
    (e.addTake t).mover = e.mover := rfl

@[simp] theorem Engine.addTake_reducer (e : Engine) (t : Take) :
    (e.addTake t).reducer = e.reducer := rfl

@[simp] theorem Engine.addTake_writer (e : Engine) (t : Take) :
    (e.addTake t).writer = e.writer := rfl

@[simp] theorem Engine.addTake_port (e : Engine) (t : Take) :
    (e.addTake t).port = e.port := rfl

@[simp] theorem Engine.addTake_arbiter (e : Engine) (t : Take) :
    (e.addTake t).arbiter = e.arbiter := rfl

@[simp] theorem Engine.addTake_notices (e : Engine) (t : Take) :
    (e.addTake t).notices = e.notices := rfl

@[simp] theorem Engine.grantSlot_takes (e : Engine) (f : FeedId) (t p : Nat) (i : SlotId) :
    (e.grantSlot f t p i).takes = e.takes := rfl

@[simp] theorem Engine.grantSlot_nextId (e : Engine) (f : FeedId) (t p : Nat) (i : SlotId) :
    (e.grantSlot f t p i).nextId = e.nextId := rfl

@[simp] theorem Engine.grantSlot_nextSeq (e : Engine) (f : FeedId) (t p : Nat) (i : SlotId) :
    (e.grantSlot f t p i).nextSeq = e.nextSeq := rfl

@[simp] theorem Engine.grantSlot_places (e : Engine) (f : FeedId) (t p : Nat) (i : SlotId) :
    (e.grantSlot f t p i).places = e.places := rfl

@[simp] theorem Engine.grantSlot_slots (e : Engine) (f : FeedId) (t p : Nat) (i : SlotId) :
    (e.grantSlot f t p i).slots = upd e.slots i fun _ => some (Slot.granted f t p) := rfl

@[simp] theorem Engine.grantSlot_held (e : Engine) (f : FeedId) (t p : Nat) (i : SlotId) :
    (e.grantSlot f t p i).held = upd e.held f fun h => h ++ [i] := rfl

@[simp] theorem Engine.grantSlot_opened (e : Engine) (f : FeedId) (t p : Nat) (i : SlotId) :
    (e.grantSlot f t p i).opened = e.opened := rfl

@[simp] theorem Engine.grantSlot_written (e : Engine) (f : FeedId) (t p : Nat) (i : SlotId) :
    (e.grantSlot f t p i).written = e.written := rfl

@[simp] theorem Engine.grantSlot_board (e : Engine) (f : FeedId) (t p : Nat) (i : SlotId) :
    (e.grantSlot f t p i).board = e.board := rfl

@[simp] theorem Engine.grantSlot_mover (e : Engine) (f : FeedId) (t p : Nat) (i : SlotId) :
    (e.grantSlot f t p i).mover = e.mover := rfl

@[simp] theorem Engine.grantSlot_reducer (e : Engine) (f : FeedId) (t p : Nat) (i : SlotId) :
    (e.grantSlot f t p i).reducer = e.reducer := rfl

@[simp] theorem Engine.grantSlot_writer (e : Engine) (f : FeedId) (t p : Nat) (i : SlotId) :
    (e.grantSlot f t p i).writer = e.writer := rfl

@[simp] theorem Engine.grantSlot_port (e : Engine) (f : FeedId) (t p : Nat) (i : SlotId) :
    (e.grantSlot f t p i).port = e.port := rfl

@[simp] theorem Engine.grantSlot_arbiter (e : Engine) (f : FeedId) (t p : Nat) (i : SlotId) :
    (e.grantSlot f t p i).arbiter = e.arbiter := rfl

@[simp] theorem Engine.grantSlot_notices (e : Engine) (f : FeedId) (t p : Nat) (i : SlotId) :
    (e.grantSlot f t p i).notices = e.notices := rfl

@[simp] theorem Engine.freeSlot_takes (e : Engine) (i : SlotId) :
    (e.freeSlot i).takes = e.takes := rfl

@[simp] theorem Engine.freeSlot_nextId (e : Engine) (i : SlotId) :
    (e.freeSlot i).nextId = e.nextId := rfl

@[simp] theorem Engine.freeSlot_nextSeq (e : Engine) (i : SlotId) :
    (e.freeSlot i).nextSeq = e.nextSeq := rfl

@[simp] theorem Engine.freeSlot_places (e : Engine) (i : SlotId) :
    (e.freeSlot i).places = e.places := rfl

@[simp] theorem Engine.freeSlot_slots (e : Engine) (i : SlotId) :
    (e.freeSlot i).slots = upd e.slots i fun _ => none := rfl

@[simp] theorem Engine.freeSlot_held (e : Engine) (i : SlotId) :
    (e.freeSlot i).held = e.held.map (List.filter fun j => j != i) := rfl

@[simp] theorem Engine.freeSlot_opened (e : Engine) (i : SlotId) :
    (e.freeSlot i).opened = e.opened := rfl

@[simp] theorem Engine.freeSlot_written (e : Engine) (i : SlotId) :
    (e.freeSlot i).written = e.written := rfl

@[simp] theorem Engine.freeSlot_board (e : Engine) (i : SlotId) :
    (e.freeSlot i).board = e.board := rfl

@[simp] theorem Engine.freeSlot_mover (e : Engine) (i : SlotId) :
    (e.freeSlot i).mover = e.mover := rfl

@[simp] theorem Engine.freeSlot_reducer (e : Engine) (i : SlotId) :
    (e.freeSlot i).reducer = e.reducer := rfl

@[simp] theorem Engine.freeSlot_writer (e : Engine) (i : SlotId) :
    (e.freeSlot i).writer = e.writer := rfl

@[simp] theorem Engine.freeSlot_port (e : Engine) (i : SlotId) :
    (e.freeSlot i).port = e.port := rfl

@[simp] theorem Engine.freeSlot_arbiter (e : Engine) (i : SlotId) :
    (e.freeSlot i).arbiter = e.arbiter := rfl

@[simp] theorem Engine.freeSlot_notices (e : Engine) (i : SlotId) :
    (e.freeSlot i).notices = e.notices := rfl

@[simp] theorem Engine.closeOpen_takes (e : Engine) (i : SlotId) :
    (e.closeOpen i).takes = e.takes := rfl

@[simp] theorem Engine.closeOpen_nextId (e : Engine) (i : SlotId) :
    (e.closeOpen i).nextId = e.nextId := rfl

@[simp] theorem Engine.closeOpen_nextSeq (e : Engine) (i : SlotId) :
    (e.closeOpen i).nextSeq = e.nextSeq := rfl

@[simp] theorem Engine.closeOpen_places (e : Engine) (i : SlotId) :
    (e.closeOpen i).places = e.places := rfl

@[simp] theorem Engine.closeOpen_slots (e : Engine) (i : SlotId) :
    (e.closeOpen i).slots = e.slots := rfl

@[simp] theorem Engine.closeOpen_held (e : Engine) (i : SlotId) :
    (e.closeOpen i).held = e.held := rfl

@[simp] theorem Engine.closeOpen_opened (e : Engine) (i : SlotId) :
    (e.closeOpen i).opened = e.opened.map (Option.filter fun k => k.slot != i) := rfl

@[simp] theorem Engine.closeOpen_written (e : Engine) (i : SlotId) :
    (e.closeOpen i).written = e.written := rfl

@[simp] theorem Engine.closeOpen_board (e : Engine) (i : SlotId) :
    (e.closeOpen i).board = e.board := rfl

@[simp] theorem Engine.closeOpen_mover (e : Engine) (i : SlotId) :
    (e.closeOpen i).mover = e.mover := rfl

@[simp] theorem Engine.closeOpen_reducer (e : Engine) (i : SlotId) :
    (e.closeOpen i).reducer = e.reducer := rfl

@[simp] theorem Engine.closeOpen_writer (e : Engine) (i : SlotId) :
    (e.closeOpen i).writer = e.writer := rfl

@[simp] theorem Engine.closeOpen_port (e : Engine) (i : SlotId) :
    (e.closeOpen i).port = e.port := rfl

@[simp] theorem Engine.closeOpen_arbiter (e : Engine) (i : SlotId) :
    (e.closeOpen i).arbiter = e.arbiter := rfl

@[simp] theorem Engine.closeOpen_notices (e : Engine) (i : SlotId) :
    (e.closeOpen i).notices = e.notices := rfl

@[simp] theorem Engine.ask_takes (e : Engine) (w : WriteRequest) :
    (e.ask w).takes = e.takes := by unfold Engine.ask; split <;> rfl

@[simp] theorem Engine.ask_nextId (e : Engine) (w : WriteRequest) :
    (e.ask w).nextId = e.nextId := by unfold Engine.ask; split <;> rfl

@[simp] theorem Engine.ask_nextSeq (e : Engine) (w : WriteRequest) :
    (e.ask w).nextSeq = e.nextSeq := by unfold Engine.ask; split <;> rfl

@[simp] theorem Engine.ask_places (e : Engine) (w : WriteRequest) :
    (e.ask w).places = e.places := by unfold Engine.ask; split <;> rfl

@[simp] theorem Engine.ask_slots (e : Engine) (w : WriteRequest) :
    (e.ask w).slots = e.slots := by unfold Engine.ask; split <;> rfl

@[simp] theorem Engine.ask_held (e : Engine) (w : WriteRequest) :
    (e.ask w).held = e.held := by unfold Engine.ask; split <;> rfl

@[simp] theorem Engine.ask_opened (e : Engine) (w : WriteRequest) :
    (e.ask w).opened = e.opened := by unfold Engine.ask; split <;> rfl

@[simp] theorem Engine.ask_written (e : Engine) (w : WriteRequest) :
    (e.ask w).written = e.written := by unfold Engine.ask; split <;> rfl

@[simp] theorem Engine.ask_board (e : Engine) (w : WriteRequest) :
    (e.ask w).board = e.board := by unfold Engine.ask; split <;> rfl

@[simp] theorem Engine.ask_mover (e : Engine) (w : WriteRequest) :
    (e.ask w).mover = e.mover := by unfold Engine.ask; split <;> rfl

@[simp] theorem Engine.ask_reducer (e : Engine) (w : WriteRequest) :
    (e.ask w).reducer = e.reducer := by unfold Engine.ask; split <;> rfl

@[simp] theorem Engine.ask_writer (e : Engine) (w : WriteRequest) :
    (e.ask w).writer = e.writer := by unfold Engine.ask; split <;> rfl

@[simp] theorem Engine.ask_arbiter (e : Engine) (w : WriteRequest) :
    (e.ask w).arbiter = e.arbiter := by unfold Engine.ask; split <;> rfl

@[simp] theorem Engine.ask_notices (e : Engine) (w : WriteRequest) :
    (e.ask w).notices = e.notices := by unfold Engine.ask; split <;> rfl

/-! ## The Record Port's other fields -/

@[simp] theorem Engine.ask_port_reads (e : Engine) (w : WriteRequest) : (e.ask w).port.reads = e.port.reads := by
  unfold Engine.ask; split <;> rfl
@[simp] theorem Engine.ask_port_outstanding (e : Engine) (w : WriteRequest) :
    (e.ask w).port.outstanding = e.port.outstanding := by unfold Engine.ask; split <;> rfl
@[simp] theorem Engine.ask_port_issued (e : Engine) (w : WriteRequest) : (e.ask w).port.issued = e.port.issued := by
  unfold Engine.ask; split <;> rfl
@[simp] theorem Engine.withdrawReads_port_writes (e : Engine) (p : ReadRequest → Bool) :
    (e.withdrawReads p).port.writes = e.port.writes := rfl
@[simp] theorem Engine.withdrawReads_port_issued (e : Engine) (p : ReadRequest → Bool) :
    (e.withdrawReads p).port.issued = e.port.issued := rfl

end Sys2Proof.Machine
end

