-- ==== Sys2Proof/Laws/Settle.lean ====
section
/-! SUPPORT. What the settling of a step can do: the inversion of one act, the induction over all acts, and what no act
changes. -/

namespace Sys2Proof.Machine

/-! ## Induction over the acts of a step -/

/-- Everything one act can be. -/
theorem State.unitStep_cases {s s' : State} (h : s.unitStep = some s') :
    s.serveStep = some s' ∨ (∃ e, s.eng.blockStep s.front = some e ∧ s' = { s with eng := e }) ∨
      s.refillStep = some s' ∨ ∃ e, s.eng.arbiterStep s.front = some e ∧ s' = { s with eng := e } := by
  unfold State.unitStep at h
  cases h1 : s.serveStep with
  | some a => left; simpa [h1] using h
  | none =>
    right
    cases h2 : s.eng.blockStep s.front with
    | some a => left; exact ⟨a, rfl, by simpa [h1, h2] using h.symm⟩
    | none =>
      right
      cases h3 : s.refillStep with
      | some a => left; simpa [h1, h2, h3] using h
      | none =>
        right
        cases h4 : s.eng.arbiterStep s.front with
        | some a => exact ⟨a, rfl, by simpa [h1, h2, h3, h4] using h.symm⟩
        | none => simp [h1, h2, h3, h4] at h

/-- A property that every act keeps is kept by the acts of a step. -/
theorem State.settleFor_keeps {P : State → Prop} (h : ∀ s s', P s → s.unitStep = some s' → P s') (n : Nat) {s : State}
    (hs : P s) : P (s.settleFor n) := by
  induction n generalizing s with
  | zero => exact hs
  | succ n ih =>
    unfold State.settleFor
    cases hu : s.unitStep with
    | none => exact hs
    | some s' => exact ih (h s s' hs hu)

/-- A property that every act keeps is kept by settling. -/
theorem State.settle_keeps {P : State → Prop} (h : ∀ s s', P s → s.unitStep = some s' → P s') {s : State} (hs : P s) :
    P s.settle := State.settleFor_keeps h _ hs

/-- A part in which nothing can act is settled. -/
theorem State.settle_of_unitStep {s : State} (h : s.unitStep = none) : s.settle = s := by
  have : s.settleFuel = s.settleFuel - 1 + 1 := by unfold State.settleFuel; omega
  unfold State.settle
  rw [this, State.settleFor, h]

/-- A property that every act of the Attention Unit keeps, and that does not look at the engine, is kept by settling. -/
theorem State.settle_keeps_front {P : State → Prop} (hserve : ∀ s s', P s → s.serveStep = some s' → P s')
    (hrefill : ∀ s s', P s → s.refillStep = some s' → P s') (heng : ∀ s e, P s → P { s with eng := e }) {s : State}
    (hs : P s) : P s.settle := by
  refine State.settle_keeps (fun s s' hs h => ?_) hs
  rcases State.unitStep_cases h with h | ⟨e, -, rfl⟩ | h | ⟨e, -, rfl⟩
  · exact hserve s s' hs h
  · exact heng s e hs
  · exact hrefill s s' hs h
  · exact heng s e hs

/-! ## A quiet Attention Unit -/

theorem State.serveStep_of_quiet {s : State} (h : s.front.attention.quiet = true) : s.serveStep = none := by
  simp only [Attention.quiet, Bool.and_eq_true, Bool.or_eq_true, Option.isNone_iff_eq_none] at h
  unfold State.serveStep
  rcases h.1 with h | ⟨h1, h2⟩
  · simp [h]
  · simp only [h1, h2, Option.map_none]
    split <;> rfl

theorem State.refillStep_of_quiet {s : State} (h : s.front.attention.quiet = true) : s.refillStep = none := by
  simp only [Attention.quiet, Bool.and_eq_true, List.all_eq_true] at h
  unfold State.refillStep State.refillDone
  rw [List.find?_eq_none.mpr, Option.map_none]
  intro f hf
  have := h.2 f hf
  simp only [bne_iff_ne, ne_eq] at this
  simp only [Bool.and_eq_true, beq_iff_eq, not_and]
  intro h'
  exact absurd h' this

/-- With a quiet Attention Unit, settling changes neither the front nor the queue. -/
theorem State.settle_of_quiet {s : State} (h : s.front.attention.quiet = true) :
    s.settle.front = s.front ∧ s.settle.pending = s.pending := by
  refine (State.settle_keeps_front (P := fun t => t.front = s.front ∧ t.pending = s.pending) ?_ ?_ ?_ ⟨rfl, rfl⟩)
  · rintro t t' ⟨hf, -⟩ ht
    rw [State.serveStep_of_quiet (by rw [hf]; exact h)] at ht
    cases ht
  · rintro t t' ⟨hf, -⟩ ht
    rw [State.refillStep_of_quiet (by rw [hf]; exact h)] at ht
    cases ht
  · intro t e ht; exact ht

theorem State.settle_front_of_quiet {s : State} (h : s.front.attention.quiet = true) : s.settle.front = s.front :=
  (State.settle_of_quiet h).1

/-! ## A part at work -/

theorem Engine.moverStep_of_waits {e : Engine} (x : Front) (h : e.mover.waits = true) : e.moverStep x = none := by
  unfold Mover.waits at h
  unfold Engine.moverStep
  split at h <;> simp_all

theorem Engine.reducerStep_of_waits {e : Engine} (x : Front) (h : e.reducer.waits = true) : e.reducerStep x = none := by
  unfold Reducer.waits at h
  unfold Engine.reducerStep
  split at h <;> simp_all

theorem Engine.writerStep_of_waits {e : Engine} (x : Front) (h : e.writer.waits = true) : e.writerStep x = none := by
  unfold Writer.waits at h
  unfold Engine.writerStep
  split at h <;> simp_all

theorem Engine.refeedStep_of_none {e : Engine} (x : Front) (h : (e.takes.all fun t => t.refeed != some .evaluate) = true) :
    e.refeedStep x = none := by
  unfold Engine.refeedStep
  rw [List.find?_eq_none.mpr, Option.map_none]
  simpa using h

/-- With a busy link and every block waiting, no block acts. -/
theorem Engine.steps_of_busyWaiting {e : Engine} (x : Front) (h : e.busyWaiting = true) :
    e.blockStep x = none ∧ e.arbiterStep x = none := by
  simp only [Engine.busyWaiting, Bool.and_eq_true] at h
  obtain ⟨⟨⟨⟨h1, h2⟩, h3⟩, h4⟩, h5⟩ := h
  refine ⟨?_, by simp [Engine.arbiterStep, h1]⟩
  simp [Engine.blockStep, Engine.moverStep_of_waits x h2, Engine.reducerStep_of_waits x h3,
    Engine.writerStep_of_waits x h4, Engine.refeedStep_of_none x h5]

/-- With a quiet Attention Unit, a busy link and every block waiting, there is nothing to settle. -/
theorem State.settle_of_busyWaiting {s : State} (h : s.front.attention.quiet = true) (he : s.eng.busyWaiting = true) :
    s.settle = s := by
  apply State.settle_of_unitStep
  have := Engine.steps_of_busyWaiting s.front he
  simp [State.unitStep, State.serveStep_of_quiet h, State.refillStep_of_quiet h, this.1, this.2]

/-! ## What no act changes -/

/-- The queue, and the parts of the front that belong to the clock, the register window, card DRAM and the host, are the
same in `s'` as in `s`. -/
structure State.Kept (s s' : State) : Prop where
  pending : s'.pending = s.pending
  dram : s'.front.dram = s.front.dram
  refCount : s'.front.refCount = s.front.refCount
  refLatch : s'.front.refLatch = s.front.refLatch
  pageBase : s'.front.pageBase = s.front.pageBase
  noticeMask : s'.front.noticeMask = s.front.noticeMask
  flags : s'.front.flags = s.front.flags
  readData : s'.front.readData = s.front.readData
  delivered : s'.front.delivered = s.front.delivered
  freeCount : s'.front.freeCount = s.front.freeCount

theorem State.Kept.refl (s : State) : s.Kept s := ⟨rfl, rfl, rfl, rfl, rfl, rfl, rfl, rfl, rfl, rfl⟩

theorem State.Kept.trans {s t u : State} (h : s.Kept t) (h' : t.Kept u) : s.Kept u :=
  ⟨h'.pending.trans h.pending, h'.dram.trans h.dram, h'.refCount.trans h.refCount, h'.refLatch.trans h.refLatch,
    h'.pageBase.trans h.pageBase, h'.noticeMask.trans h.noticeMask, h'.flags.trans h.flags,
    h'.readData.trans h.readData, h'.delivered.trans h.delivered, h'.freeCount.trans h.freeCount⟩

theorem State.act_kept (s : State) (g : Front → Engine → Engine) : s.Kept (s.act g) :=
  ⟨rfl, rfl, rfl, rfl, rfl, rfl, rfl, rfl, rfl, rfl⟩

theorem State.eng_kept (s : State) (e : Engine) : s.Kept { s with eng := e } :=
  ⟨rfl, rfl, rfl, rfl, rfl, rfl, rfl, rfl, rfl, rfl⟩

theorem State.onAttention_kept (s : State) (g : Attention → Attention) : s.Kept (s.onAttention g) :=
  ⟨rfl, rfl, rfl, rfl, rfl, rfl, rfl, rfl, rfl, rfl⟩

theorem State.onReceiver_kept (s : State) (f : FeedId) (g : Receiver → Receiver) : s.Kept (s.onReceiver f g) :=
  ⟨rfl, rfl, rfl, rfl, rfl, rfl, rfl, rfl, rfl, rfl⟩

theorem State.updTimer_kept (s : State) (f : FeedId) (g : FeedTimer → FeedTimer) :
    s.Kept (s.onFront fun x => x.updTimer f g) :=
  ⟨rfl, rfl, rfl, rfl, rfl, rfl, rfl, rfl, rfl, rfl⟩

theorem State.answer_kept (f : FeedId) (q : FeedRequest) (r : Result) (n : Nat) (s : State) : s.Kept (s.answer f q r n) := by
  unfold State.answer
  exact (State.onAttention_kept s _).trans (State.act_kept _ _)

theorem State.globalAnswer_kept (q : GlobalRequest) (r : Result) (s : State) : s.Kept (s.globalAnswer q r) := by
  unfold State.globalAnswer
  exact (State.onAttention_kept s _).trans (State.act_kept _ _)

theorem State.conclude_kept (f : FeedId) (q : FeedRequest) (r : Result) (n : Nat) (s : State) :
    s.Kept (s.conclude f q r n) := (State.onAttention_kept s _).trans (State.answer_kept f q r n _)

theorem State.serveReading_kept (v : Service) (r : ReadRequest) (s : State) : s.Kept (s.serveReading v r) :=
  (State.onAttention_kept s _).trans (State.act_kept _ _)

theorem State.foldl_kept {α : Type} {g : State → α → State} (h : ∀ (s : State) (a : α), s.Kept (g s a)) (l : List α) (s : State) :
    s.Kept (l.foldl g s) := by
  induction l generalizing s with
  | nil => exact .refl s
  | cons a l ih => exact (h s a).trans (ih _)

theorem State.dropLoad_kept (s : State) : s.Kept (s.onFront fun x => { x with pendingLoad := none }) :=
  ⟨rfl, rfl, rfl, rfl, rfl, rfl, rfl, rfl, rfl, rfl⟩

theorem State.abandonLoad_kept (s : State) : s.Kept s.abandonLoad := by
  unfold State.abandonLoad
  split
  · exact .refl s
  · exact (State.dropLoad_kept s).trans (State.globalAnswer_kept ..)

theorem State.refuseWaiting_kept (s : State) (f : FeedId) : s.Kept (s.refuseWaiting f) := by
  unfold State.refuseWaiting
  split
  · exact .refl s
  · exact State.conclude_kept ..

theorem State.takeStandby_kept (s : State) : s.Kept s.takeStandby := by
  unfold State.takeStandby State.enterStandby
  exact ((((s.abandonLoad_kept.trans (State.foldl_kept State.refuseWaiting_kept _ _)).trans (State.act_kept _ _)).trans
    (State.globalAnswer_kept _ _ _)).trans (State.onAttention_kept _ _)).trans (State.act_kept _ _)

theorem State.serveGlobal_kept (q : GlobalRequest) (s : State) : s.Kept (s.serveGlobal q) := by
  have h := State.onAttention_kept s fun u => { u with global := none }
  cases q with
  | start => exact h.trans (State.globalAnswer_kept ..)
  | standby =>
    simp only [State.serveGlobal]
    split
    · exact h.trans (State.globalAnswer_kept ..)
    · exact h.trans (State.takeStandby_kept _)
  | timeLoad => exact h.trans (State.serveReading_kept ..)

theorem State.resetFeed_kept (s : State) (f : FeedId) :
    s.Kept (s.onFront fun x => { x.updTimer f fun _ => .reset with reduce := upd x.reduce f fun _ => none }) :=
  ⟨rfl, rfl, rfl, rfl, rfl, rfl, rfl, rfl, rfl, rfl⟩

theorem State.serveFeedReset_kept (f : FeedId) (s : State) : s.Kept (s.serveFeedReset f) := by
  unfold State.serveFeedReset
  exact (((((State.onReceiver_kept s f _).trans (State.resetFeed_kept _ f)).trans (State.act_kept _ _)).trans
    (State.act_kept _ _)).trans (State.act_kept _ _)).trans (State.conclude_kept ..)

theorem State.serveFeed_kept (f : FeedId) (q : FeedRequest) (s : State) : s.Kept (s.serveFeed f q) := by
  cases q with
  | load => exact State.serveReading_kept ..
  | loadCommon => exact State.serveReading_kept ..
  | arm =>
    simp only [State.serveFeed]
    split
    · exact State.serveReading_kept ..
    · exact State.conclude_kept ..
  | stop =>
    simp only [State.serveFeed, State.serveStop]
    split
    · exact State.conclude_kept ..
    · exact (State.act_kept _ _).trans (State.conclude_kept ..)
  | halt =>
    simp only [State.serveFeed, State.serveHalt]
    split
    · exact State.conclude_kept ..
    · exact (State.act_kept _ _).trans (State.conclude_kept ..)
  | abort =>
    simp only [State.serveFeed, State.serveAbort]
    split
    · exact (State.act_kept _ _).trans (State.conclude_kept ..)
    · exact State.conclude_kept ..
  | refill =>
    simp only [State.serveFeed, State.serveRefill]
    split
    · split
      · exact State.conclude_kept ..
      · exact State.act_kept ..
    · exact State.conclude_kept ..
  | feedReset => exact State.serveFeedReset_kept ..

/-- One act of the Attention Unit keeps the clock, the registers, card DRAM, the host and the queue. -/
theorem State.serveStep_kept {s s' : State} (h : s.serveStep = some s') : s.Kept s' := by
  simp only [State.serveStep] at h
  split at h
  · cases h
  · split at h
    · cases h; exact State.serveGlobal_kept ..
    · obtain ⟨p, -, rfl⟩ := Option.map_eq_some_iff.mp h
      exact (State.onAttention_kept _ _).trans (State.serveFeed_kept ..)

theorem State.refillStep_kept {s s' : State} (h : s.refillStep = some s') : s.Kept s' := by
  obtain ⟨f, -, rfl⟩ := Option.map_eq_some_iff.mp h
  exact State.conclude_kept ..

/-- Settling keeps the clock, the registers, card DRAM, the host and the queue. -/
theorem State.settle_kept (s : State) : s.Kept s.settle := by
  refine State.settle_keeps_front (P := fun t => s.Kept t) ?_ ?_ ?_ (.refl s)
  · intro t t' h ht; exact h.trans (State.serveStep_kept ht)
  · intro t t' h ht; exact h.trans (State.refillStep_kept ht)
  · intro t e h; exact h.trans (State.eng_kept t e)

end Sys2Proof.Machine
end

