-- ==== Sys2Proof/Laws/Rest.lean ====
section
/-! SUPPORT. When the part is at rest: which parts of the state that depends on, and that a command whose effect leaves
those parts alone leaves the part at rest. -/

namespace Sys2Proof.Machine

/-! ## No act is left -/

theorem State.unitStep_eq_none_iff (s : State) :
    s.unitStep = none ↔ s.serveStep = none ∧ s.eng.blockStep s.front = none ∧ s.refillStep = none ∧
      s.eng.arbiterStep s.front = none := by
  simp only [State.unitStep, Option.or_eq_none_iff, Option.map_eq_none_iff]

/-- A part at rest is settled. -/
theorem State.settle_of_atRest {s : State} (h : s.atRest = true) : s.settle = s :=
  State.settle_of_unitStep (by simpa [State.atRest] using h)

theorem State.serveStep_eq_none_iff (s : State) :
    s.serveStep = none ↔ s.front.attention.service.isSome = true ∨
      (s.front.attention.global = none ∧ s.front.attention.nextFeed = none) := by
  simp only [State.serveStep]
  split
  · simp_all
  · split <;> simp_all

theorem State.refillStep_eq_none_iff (s : State) :
    s.refillStep = none ↔ ∀ f : FeedId, s.front.attention.pending[f] = some ⟨.refill, true⟩ → s.eng.port.refillWaits f = true := by
  simp [State.refillStep, State.refillDone, List.find?_eq_none]

/-- The parts of the engine that decide whether a block acts. -/
structure Engine.SameWork (e e' : Engine) : Prop where
  takes : e'.takes = e.takes
  slots : e'.slots = e.slots
  held : e'.held = e.held
  places : e'.places = e.places
  mover : e'.mover = e.mover
  reducer : e'.reducer = e.reducer
  writer : e'.writer = e.writer
  busy : e'.arbiter.busy = e.arbiter.busy

theorem Engine.SameWork.refl (e : Engine) : e.SameWork e := ⟨rfl, rfl, rfl, rfl, rfl, rfl, rfl, rfl⟩

theorem Engine.SameWork.trans {a b c : Engine} (h : a.SameWork b) (k : b.SameWork c) : a.SameWork c :=
  ⟨k.takes.trans h.takes, k.slots.trans h.slots, k.held.trans h.held, k.places.trans h.places, k.mover.trans h.mover,
    k.reducer.trans h.reducer, k.writer.trans h.writer, k.busy.trans h.busy⟩

theorem Engine.SameWork.take? {e e' : Engine} (h : e.SameWork e') (n : Nat) : e'.take? n = e.take? n := by
  simp [Engine.take?, h.takes]

theorem Engine.SameWork.heldSlots {e e' : Engine} (h : e.SameWork e') (f : FeedId) : e'.heldSlots f = e.heldSlots f := by
  simp [Engine.heldSlots, h.slots, h.held]

theorem Engine.SameWork.writerFinding {e e' : Engine} (h : e.SameWork e') (t : Take) (b : Bool) :
    e'.writerFinding t b = e.writerFinding t b := by
  have : e'.moverChecks t.id = e.moverChecks t.id := by
    unfold Engine.moverChecks; rw [h.mover, h.slots]
  have : e'.wouldMove t = e.wouldMove t := by
    simp only [Engine.wouldMove, Engine.stagedTake, h.places, h.take?]
  unfold Engine.writerFinding
  simp only [*]

/-- Whether a block acts depends on its own work alone, and not on the front. -/
theorem Engine.SameWork.blockStep {e e' : Engine} (h : e.SameWork e') (x x' : Front) :
    e'.blockStep x' = none ↔ e.blockStep x = none := by
  have hm : e'.moverChoice = e.moverChoice := by
    simp only [Engine.moverChoice, Engine.oldestCandidate, h.heldSlots, Engine.candidate, h.take?, h.mover]
  have hr : e'.reducerChoice = e.reducerChoice := by
    simp only [Engine.reducerChoice, Engine.waiting, h.heldSlots, Engine.waits, h.take?, h.reducer]
  have ho : e'.serviceOrder = e.serviceOrder := by simp only [Engine.serviceOrder, h.writer, h.takes]
  have h1 : e'.refeedStep x' = none ↔ e.refeedStep x = none := by
    simp only [Engine.refeedStep, h.takes, Option.map_eq_none_iff]
  have h2 : e'.moverStep x' = none ↔ e.moverStep x = none := by
    unfold Engine.moverStep
    rw [h.mover, hm]
    split <;> simp
  have h3 : e'.reducerStep x' = none ↔ e.reducerStep x = none := by
    unfold Engine.reducerStep
    rw [h.reducer, hr]
    split
    · simp
    · simp
    · split <;> simp
  have h4 : e'.writerStep x' = none ↔ e.writerStep x = none := by
    unfold Engine.writerStep
    rw [h.writer, ho]
    simp only [h.writerFinding]
    split <;> simp
  simp only [Engine.blockStep, Option.or_eq_none_iff, h1, h2, h3, h4]

theorem Engine.arbiterStep_of_busy {e : Engine} (x : Front) (h : e.arbiter.busy.isSome = true) : e.arbiterStep x = none := by
  simp [Engine.arbiterStep, h]

/-- A part at rest with a busy link stays at rest when the Attention Unit, the blocks' work and the reads asked stay. -/
theorem State.atRest_of_same {s s' : State} (h : s.atRest = true) (hb : s.linkBusy = true)
    (ha : s'.front.attention = s.front.attention) (hw : s.eng.SameWork s'.eng)
    (hr : ∀ f, s.eng.port.refillWaits f = true → s'.eng.port.refillWaits f = true) : s'.atRest = true := by
  have h : s.unitStep = none := by simpa [State.atRest] using h
  obtain ⟨h1, h2, h3, -⟩ := s.unitStep_eq_none_iff.mp h
  have : s'.unitStep = none := by
    rw [State.unitStep_eq_none_iff]
    refine ⟨?_, (hw.blockStep _ _).mpr h2, ?_, Engine.arbiterStep_of_busy _ ?_⟩
    · rw [State.serveStep_eq_none_iff, ha]; exact s.serveStep_eq_none_iff.mp h1
    · rw [State.refillStep_eq_none_iff, ha]
      intro f hf; exact hr f (s.refillStep_eq_none_iff.mp h3 f hf)
    · rw [hw.busy]; exact hb
  simp [State.atRest, this]

/-- A part at rest stays at rest when only the front outside the Attention Unit changes. -/
theorem State.atRest_of_front {s s' : State} (h : s.atRest = true) (ha : s'.front.attention = s.front.attention)
    (he : s'.eng = s.eng) : s'.atRest = true := by
  have h : s.unitStep = none := by simpa [State.atRest] using h
  obtain ⟨h1, h2, h3, h4⟩ := s.unitStep_eq_none_iff.mp h
  have : s'.unitStep = none := by
    rw [State.unitStep_eq_none_iff, he]
    refine ⟨?_, ((Engine.SameWork.refl s.eng).blockStep _ _).mpr h2, ?_, ?_⟩
    · rw [State.serveStep_eq_none_iff, ha]; exact s.serveStep_eq_none_iff.mp h1
    · rw [State.refillStep_eq_none_iff, ha, he]; exact s.refillStep_eq_none_iff.mp h3
    · simp only [Engine.arbiterStep] at h4 ⊢
      split
      · rfl
      · rename_i hb
        simp only [hb] at h4
        simp only [Bool.false_eq_true, if_false, Option.or_eq_none_iff] at h4 ⊢
        obtain ⟨h5, h6, h7⟩ := h4
        refine ⟨?_, h6, ?_⟩
        · simp only [Engine.grantPort] at h5 ⊢
          split <;> simp_all
        · simp only [Engine.grantPicture] at h7 ⊢
          split <;> simp_all
  simp [State.atRest, this]

/-- With the part at rest, a change of the front outside the Attention Unit gives rise to no act. -/
theorem State.settle_of_front {s s' : State} (h : s.atRest = true) (ha : s'.front.attention = s.front.attention)
    (he : s'.eng = s.eng) : s'.settle = s' := State.settle_of_atRest (State.atRest_of_front h ha he)

/-- With the part at rest and the link busy, a change outside the Attention Unit and the blocks' work gives rise to no
act. -/
theorem State.settle_of_same {s s' : State} (h : s.atRest = true) (hb : s.linkBusy = true)
    (ha : s'.front.attention = s.front.attention) (hw : s.eng.SameWork s'.eng)
    (hr : ∀ f, s.eng.port.refillWaits f = true → s'.eng.port.refillWaits f = true) : s'.settle = s' :=
  State.settle_of_atRest (State.atRest_of_same h hb ha hw hr)

/-! ## Asking keeps the blocks' work -/

theorem Engine.ask_sameWork (e : Engine) (w : WriteRequest) : e.SameWork (e.ask w) := by
  unfold Engine.ask; split <;> exact ⟨rfl, rfl, rfl, rfl, rfl, rfl, rfl, rfl⟩

theorem Engine.ask_reads (e : Engine) (w : WriteRequest) :
    (e.ask w).port.reads = e.port.reads ∧ (e.ask w).port.outstanding = e.port.outstanding := by
  unfold Engine.ask; split <;> exact ⟨rfl, rfl⟩

theorem Engine.oweMessage_sameWork (x : Front) (b : Bool) (e : Engine) : e.SameWork (e.oweMessage x b) := by
  unfold Engine.oweMessage
  split
  · split
    · exact Engine.ask_sameWork e _
    · exact ⟨rfl, rfl, rfl, rfl, rfl, rfl, rfl, rfl⟩
  · exact .refl e

theorem Engine.oweMessage_reads (x : Front) (b : Bool) (e : Engine) :
    (e.oweMessage x b).port.reads = e.port.reads ∧ (e.oweMessage x b).port.outstanding = e.port.outstanding := by
  unfold Engine.oweMessage
  split
  · split
    · exact Engine.ask_reads e _
    · exact ⟨rfl, rfl⟩
  · exact ⟨rfl, rfl⟩

/-- A change of a feed's causes keeps the blocks' work. -/
theorem Engine.setCauses_sameWork (x : Front) (f : FeedId) (c : BitVec 9) (e : Engine) : e.SameWork (e.setCauses x f c) := by
  unfold Engine.setCauses
  split
  · exact .refl e
  · have h : e.SameWork { e with notices := { e.notices with causes := upd e.notices.causes f fun _ => c } } :=
      ⟨rfl, rfl, rfl, rfl, rfl, rfl, rfl, rfl⟩
    refine Engine.SameWork.trans ?_ (Engine.oweMessage_sameWork _ _ _)
    split
    · exact h.trans (Engine.ask_sameWork _ _)
    · exact h

theorem Engine.setCauses_reads (x : Front) (f : FeedId) (c : BitVec 9) (e : Engine) :
    (e.setCauses x f c).port.reads = e.port.reads ∧ (e.setCauses x f c).port.outstanding = e.port.outstanding := by
  unfold Engine.setCauses
  split
  · exact ⟨rfl, rfl⟩
  · have h := Engine.oweMessage_reads x (e.notices.maskedOn x.noticeMask)
      (if x.attention.part = .running then
        Engine.ask { e with notices := { e.notices with causes := upd e.notices.causes f fun _ => c } } (.mirror f)
      else { e with notices := { e.notices with causes := upd e.notices.causes f fun _ => c } })
    refine ⟨h.1.trans ?_, h.2.trans ?_⟩ <;> split <;> simp

theorem Engine.oweMessage_causes (x : Front) (b : Bool) (e : Engine) :
    (e.oweMessage x b).notices.causes = e.notices.causes := by
  unfold Engine.oweMessage
  split
  · split
    · rw [Engine.ask_notices]
    · rfl
  · rfl

/-- What a change of a feed's causes does to the sets: feed `f`'s becomes `c`. -/
theorem Engine.setCauses_causes (x : Front) (f : FeedId) (c : BitVec 9) (e : Engine) :
    (e.setCauses x f c).notices.causes = upd e.notices.causes f fun _ => c := by
  unfold Engine.setCauses
  split
  · rename_i h
    exact (upd_eq_self _ _ _ h).symm
  · dsimp only
    rw [Engine.oweMessage_causes]
    split
    · rw [Engine.ask_notices]
    · rfl

end Sys2Proof.Machine
end

