-- ==== Sys2Proof/Laws/Engine.lean ====
section
/-! SUPPORT. What the shared operations of the engine can do, said once for each: which parts of the engine an operation
may change, how a take is found after a change of takes, and which changes of the slots keep the pool good. -/

namespace Sys2Proof.Machine

/-! ## Takes -/

/-- A take found after a change that keeps take numbers. -/
theorem Engine.take?_updTake (e : Engine) (t n : Nat) (g : Take → Take) (hg : ∀ k, (g k).id = k.id) :
    (e.updTake t g).take? n = (e.take? n).map fun k => if k.id = t then g k else k := by
  simp only [Engine.take?, Engine.updTake, List.find?_map]
  congr 2
  funext k
  simp only [Function.comp]
  split <;> simp [hg]

/-- A change of one take leaves the others as they are. -/
theorem Engine.take?_updTake_of_ne (e : Engine) {t n : Nat} (g : Take → Take) (hg : ∀ k, (g k).id = k.id) (h : n ≠ t) :
    (e.updTake t g).take? n = e.take? n := by
  rw [Engine.take?_updTake e t n g hg]
  cases hk : e.take? n with
  | none => rfl
  | some k =>
    have : k.id = n := by simpa using List.find?_some hk
    simp [this, h]

/-- A change of a take that is found gives the changed take. -/
theorem Engine.take?_updTake_self (e : Engine) {t : Nat} {k : Take} (g : Take → Take) (hg : ∀ k, (g k).id = k.id)
    (h : e.take? t = some k) : (e.updTake t g).take? t = some (g k) := by
  have : k.id = t := by simpa using List.find?_some h
  rw [Engine.take?_updTake e t t g hg, h]
  simp [this]

/-! ## What a move records -/

/-- What a move makes of the browse progress: under a take with browse enabled UNDECIDED stays so, and any other becomes
SKIPPED_MOVED; under one with browse disabled REDUCING becomes SKIPPED_MOVED, and any other DISABLED. -/
theorem Slot.moved_browse (t position : Nat) (browseOn : Bool) (s : Slot) :
    (Slot.moved t position browseOn s).browse =
      if s.browse = .reducing then .decided .skippedMoved
      else if browseOn then (if s.browse = .undecided then .undecided else .decided .skippedMoved)
      else .decided .disabled := by
  cases h : s.browse <;> cases browseOn <;> simp [Slot.moved, h]

/-- A Live take found exhausted stays as it stands when a check of a frame falls short. -/
theorem Engine.starveEssence_of_exhausted (x : Front) (t : Take) (e : Engine) (ht : e.take? t.id = some t)
    (h : t.exhausted.isSome = true) (hs : t.state ≠ .closing) : e.starveEssence x t = e := by
  simp [Engine.starveEssence, Engine.findExhausted, h, ht, hs]

/-- No check of a take found exhausted makes it index-starved. -/
theorem Take.indexShort_ne_starve (t : Take) (h : t.exhausted.isSome = true) : t.indexShort ≠ .starve := by
  unfold Take.indexShort
  cases ht : t.exhausted <;> simp_all
  split <;> simp

/-! ## Which parts an operation changes -/

/-- An asked write changes the write list alone. -/
theorem Engine.ask_eq (e : Engine) (w : WriteRequest) :
    e.ask w = { e with port := { e.port with writes := (e.ask w).port.writes } } := by
  unfold Engine.ask; split <;> rfl

/-- The cancelling of a take that never began changes the port and the takes alone. -/
theorem Engine.abortUnbegun_eq (t : Take) (e : Engine) :
    e.abortUnbegun t = { e with port := (e.abortUnbegun t).port, takes := (e.abortUnbegun t).takes } := by
  unfold Engine.abortUnbegun Engine.cancelTake Engine.ask; split <;> rfl

/-- An owed message changes the write list and the message-owed mark alone. -/
theorem Engine.oweMessage_eq (x : Front) (b : Bool) (e : Engine) :
    e.oweMessage x b = { e with
      port := { e.port with writes := (e.oweMessage x b).port.writes }
      notices := { e.notices with messageOwed := (e.oweMessage x b).notices.messageOwed } } := by
  unfold Engine.oweMessage
  split
  · split
    · unfold Engine.ask; split <;> rfl
    · rfl
  · rfl

/-- A change of a cause set changes the write list and the notices alone. -/
theorem Engine.setCauses_eq (x : Front) (f : FeedId) (c : BitVec 9) (e : Engine) :
    e.setCauses x f c = { e with
      port := { e.port with writes := (e.setCauses x f c).port.writes }
      notices := (e.setCauses x f c).notices } := by
  unfold Engine.setCauses
  split
  · rfl
  · dsimp only
    rw [Engine.oweMessage_eq]
    split
    · rw [Engine.ask_eq]
    · rfl

/-- An ordinary event record changes the takes and the record numbers alone. -/
theorem Engine.queueEvent_eq (t : Nat) (b : RecordBody) (e : Engine) :
    e.queueEvent t b = { e with takes := (e.queueEvent t b).takes, nextSeq := (e.queueEvent t b).nextSeq } := by
  unfold Engine.queueEvent
  split
  · rfl
  · split <;> rfl

/-- Several event records change the takes and the record numbers alone. -/
theorem Engine.queueEvents_eq (t : Nat) (bs : List RecordBody) (e : Engine) :
    e.queueEvents t bs = { e with takes := (e.queueEvents t bs).takes, nextSeq := (e.queueEvents t bs).nextSeq } := by
  induction bs generalizing e with
  | nil => rfl
  | cons b bs ih =>
    have h := ih (e.queueEvent t b)
    unfold Engine.queueEvents at h ⊢
    rw [List.foldl_cons, h, Engine.queueEvent_eq]

/-- The withdrawal of a record in hand changes the Index Writer's hand and the reads alone. -/
theorem Engine.withdrawWriter_eq (t : Nat) (e : Engine) :
    e.withdrawWriter t = { e with
      writer := { e.writer with inHand := (e.withdrawWriter t).writer.inHand }
      port := (e.withdrawWriter t).port } := by
  unfold Engine.withdrawWriter
  split
  · split <;> rfl
  · rfl

/-- Making room in the Index Queues changes the takes, the Index Writer's hand and the reads alone. -/
theorem Engine.makeRoom_eq (f : FeedId) (e : Engine) :
    e.makeRoom f = { e with
      takes := (e.makeRoom f).takes
      writer := { e.writer with inHand := (e.makeRoom f).writer.inHand }
      port := (e.makeRoom f).port } := by
  unfold Engine.makeRoom
  split
  · unfold Engine.removeNewest
    split
    · rfl
    · split
      · rfl
      · split
        · rw [Engine.withdrawWriter_eq]; rfl
        · rfl
  · rfl

/-- END joins a queue: the takes, the record numbers, the Index Writer's hand and the reads alone change. -/
theorem Engine.queueEnd_eq (f : FeedId) (t : Nat) (e : Engine) :
    e.queueEnd f t = { e with
      takes := (e.queueEnd f t).takes
      nextSeq := (e.queueEnd f t).nextSeq
      writer := { e.writer with inHand := (e.queueEnd f t).writer.inHand }
      port := (e.queueEnd f t).port } := by
  unfold Engine.queueEnd
  rw [Engine.makeRoom_eq]
  rfl

/-- START joins a queue: the takes, the record numbers, the Index Writer's hand and the reads alone change. -/
theorem Engine.queueStart_eq (f : FeedId) (t : Nat) (r : StartRecord) (e : Engine) :
    e.queueStart f t r = { e with
      takes := (e.queueStart f t r).takes
      nextSeq := (e.queueStart f t r).nextSeq
      writer := { e.writer with inHand := (e.queueStart f t r).writer.inHand }
      port := (e.queueStart f t r).port } := by
  unfold Engine.queueStart
  rw [Engine.makeRoom_eq]
  rfl

/-- Records placed behind the head of a queue: the takes and the record numbers alone change. -/
theorem Engine.queueBehind_eq (n t : Nat) (bs : List RecordBody) (e : Engine) :
    e.queueBehind n t bs = { e with
      takes := (e.queueBehind n t bs).takes
      nextSeq := (e.queueBehind n t bs).nextSeq } := by
  unfold Engine.queueBehind
  split <;> rfl

/-- The split of a queue changes the Index Writer's hand and the reads alone. -/
theorem Engine.withdrawAtSplit_eq (kind : Exhaustion) (t : Take) (e : Engine) :
    e.withdrawAtSplit kind t = { e with
      writer := { e.writer with inHand := (e.withdrawAtSplit kind t).writer.inHand }
      port := (e.withdrawAtSplit kind t).port } := by
  unfold Engine.withdrawAtSplit
  split
  · split
    · exact Engine.withdrawWriter_eq _ _
    · rfl
  · exact Engine.withdrawWriter_eq _ _

/-- Records that move to another take: the takes, the Index Writer's hand and the reads alone change. -/
theorem Engine.moveRecords_eq (kind : Exhaustion) (t g : Take) (e : Engine) :
    e.moveRecords kind t g = { e with
      takes := (e.moveRecords kind t g).takes
      writer := { e.writer with inHand := (e.moveRecords kind t g).writer.inHand }
      port := (e.moveRecords kind t g).port } := by
  unfold Engine.moveRecords
  rw [Engine.withdrawAtSplit_eq]
  rfl

/-- An attempt to settle a frame changes the slots and the takes alone. -/
theorem Engine.trySettle_eq (i : SlotId) (e : Engine) :
    e.trySettle i = { e with slots := (e.trySettle i).slots, takes := (e.trySettle i).takes } := by
  unfold Engine.trySettle
  split
  · rfl
  · split <;> rfl

/-! ## The pool -/

/-- Slots that keep their feeds, under held lists that stay, keep the pool good. -/
theorem Engine.poolGood_of_feeds {e e' : Engine} (h : e.poolGood) (hh : e'.held = e.held)
    (hs : ∀ (f : FeedId) (i : SlotId), e'.heldBy f i = e.heldBy f i) : e'.poolGood := by
  intro f
  rw [hh]
  exact ⟨(h f).1, fun i => by rw [hs]; exact (h f).2 i⟩

/-- A change of a slot's record that keeps its feed keeps the pool good. -/
theorem Engine.updSlot_poolGood {e : Engine} (h : e.poolGood) (i : SlotId) (g : Slot → Slot)
    (hg : ∀ s, (g s).feed = s.feed) : (e.updSlot i g).poolGood := by
  refine Engine.poolGood_of_feeds h rfl fun f j => ?_
  simp only [Engine.heldBy, Engine.updSlot]
  have := upd_get e.slots i j (Option.map g)
  simp only [Fin.getElem_fin] at this ⊢
  rw [this]
  split
  · rename_i hij
    cases hs : e.slots[j.val] <;> simp_all
  · rfl

/-- The grant of a FREE slot keeps the pool good. -/
theorem Engine.grantSlot_poolGood {e : Engine} (h : e.poolGood) (f : FeedId) (t p : Nat) {i : SlotId}
    (hi : e.slots[i] = none) : (e.grantSlot f t p i).poolGood := by
  have hfree : ∀ g : FeedId, i ∉ e.held[g] := fun g hm => by
    have := ((h g).2 i).mp hm
    simp [Engine.heldBy, hi] at this
  intro g
  have hheld := upd_get e.held f g fun l => l ++ [i]
  have hslot : ∀ j : SlotId, (e.grantSlot f t p i).slots[j] = if j = i then some (Slot.granted f t p) else e.slots[j] :=
    fun j => by simpa [eq_comm] using upd_get e.slots i j fun _ => some (Slot.granted f t p)
  have hby : ∀ j : SlotId, (e.grantSlot f t p i).heldBy g j = if j = i then f == g else e.heldBy g j := fun j => by
    simp only [Engine.heldBy, hslot]
    split <;> simp [Slot.granted]
  have hl : (e.grantSlot f t p i).held[g] = if f = g then e.held[f] ++ [i] else e.held[g] := hheld
  rw [hl]
  split
  · rename_i hfg
    subst hfg
    refine ⟨List.nodup_append.mpr ⟨(h f).1, List.nodup_singleton i, ?_⟩, fun j => ?_⟩
    · intro a ha b hb hab
      rw [List.mem_singleton] at hb
      exact hfree f (hb ▸ hab ▸ ha)
    · rw [hby, List.mem_append, List.mem_singleton]
      split
      · rename_i hj; simp [hj]
      · rename_i hj; simpa [hj] using (h f).2 j
  · rename_i hfg
    refine ⟨(h g).1, fun j => ?_⟩
    rw [hby]
    split
    · rename_i hj
      rw [hj]
      exact ⟨fun hm => absurd hm (hfree g), fun hm => absurd (beq_iff_eq.mp hm) hfg⟩
    · exact (h g).2 j

/-- The return of a slot to FREE keeps the pool good. -/
theorem Engine.freeSlot_poolGood {e : Engine} (h : e.poolGood) (i : SlotId) : (e.freeSlot i).poolGood := by
  intro g
  have hslot : ∀ j : SlotId, (e.freeSlot i).slots[j] = if i = j then none else e.slots[j] :=
    fun j => upd_get e.slots i j fun _ => none
  have hl : (e.freeSlot i).held[g] = (e.held[g]).filter fun j => j != i := by
    simp [Engine.freeSlot]
  rw [hl]
  refine ⟨(h g).1.filter _, fun j => ?_⟩
  simp only [Engine.heldBy, hslot, List.mem_filter, bne_iff_ne, ne_eq]
  split
  · rename_i hj; simp [hj]
  · rename_i hj
    have := (h g).2 j
    simp only [Engine.heldBy] at this
    rw [this]
    exact ⟨fun hm => hm.1, fun hm => ⟨hm, fun hji => hj hji.symm⟩⟩

end Sys2Proof.Machine
end

