-- ==== Sys2Proof/WellFormed.lean ====
section
/-! DEFINITION. Which commands are well formed: those whose operands can arrive at the part. Every command has a meaning
whether or not it is well formed (data characters out of place are discarded, R179); these checks say which operands the
lane receiver and the host link can deliver. -/

namespace Sys2Proof

/-- The number of data characters a Metadata Packet of item count `count` has (R179): the count, then seven for each item. -/
def Instr.packetLength (count : Byte) : Nat := 1 + 7 * count.toNat

/-- The operand checks, one per kind of operand. -/
def Instr.wf : Instr → Bool
  | .frameHeader _ chars => chars.length == 12
  | .lineMarker _ chars => chars.length ≤ 2
  | .sampleData _ chars => chars.length ≤ 5
  | .metadataPacket _ [] => true
  | .metadataPacket _ (count :: items) => 1 + items.length ≤ Instr.packetLength count
  | .readCompletion ⟨_, .data bytes⟩ => bytes.length ≤ 64
  | .ignoredRegisterWrite offset _ => offset == 0x18 || offset == 0x1C
  | .signalLoss _ | .signalReturn _ | .frameHeaderStart _ | .lineEnd _ | .lossDeadlineExpiry _ | .refPulseEdge
  | .timeLoadWaitExpiry | .readCompletion ⟨_, .error⟩ | .readTimeout | .linkBurstComplete | .browseBandComplete
  | .load _ | .loadCommon _ | .arm _ | .stop _ | .halt _ | .abort _ | .refill _ | .feedReset _ | .start _ | .standby _
  | .timeLoad _ | .attentionIgnored _ | .noticeWrite _ | .noticeMaskWrite _ | .partStatusWrite _ | .pageBaseWrite _ _
  | .refCountLowRead | .powerOnReset | .hostLinkReset => true

end Sys2Proof
end

