-- ==== Sys2Proof/Laws/PerInstr.lean ====
section
/-! SUPPORT. A law of every command as syntax: how many bytes the operand of a well-formed command can carry from a lane or
from the host link. The longest is a Metadata Packet of 255 items (R179), which the Feed Receiver discards whole (R19). -/

namespace Sys2Proof.Laws

/-- The data characters or bytes a command's operand carries. -/
def operandBytes : Instr → Nat
  | .frameHeader _ chars | .lineMarker _ chars | .sampleData _ chars | .metadataPacket _ chars => chars.length
  | .readCompletion ⟨_, .data bytes⟩ => bytes.length
  | .readCompletion ⟨_, .error⟩ => 0
  | .signalLoss _ | .signalReturn _ | .frameHeaderStart _ | .lineEnd _ | .lossDeadlineExpiry _ | .refPulseEdge
  | .timeLoadWaitExpiry | .readTimeout | .linkBurstComplete | .browseBandComplete | .load _ | .loadCommon _ | .arm _
  | .stop _ | .halt _ | .abort _ | .refill _ | .feedReset _ | .start _ | .standby _ | .timeLoad _ | .attentionIgnored _
  | .noticeWrite _ | .noticeMaskWrite _ | .partStatusWrite _ | .pageBaseWrite _ _ | .refCountLowRead
  | .ignoredRegisterWrite _ _ | .powerOnReset | .hostLinkReset => 0

/-- A well-formed command's operand carries at most the 1,786 data characters of the longest Metadata Packet. -/
def OperandBound.Statement (i : Instr) : Prop := i.wf = true → operandBytes i ≤ 1786

theorem OperandBound.signalLoss (f : FeedId) : OperandBound.Statement (.signalLoss f) := by
  intro _; simp [operandBytes]

theorem OperandBound.signalReturn (f : FeedId) : OperandBound.Statement (.signalReturn f) := by
  intro _; simp [operandBytes]

theorem OperandBound.frameHeaderStart (f : FeedId) : OperandBound.Statement (.frameHeaderStart f) := by
  intro _; simp [operandBytes]

theorem OperandBound.frameHeader (f : FeedId) (chars : List Byte) : OperandBound.Statement (.frameHeader f chars) := by
  intro h
  simp only [Instr.wf, beq_iff_eq] at h
  simp only [operandBytes]
  omega

theorem OperandBound.lineMarker (f : FeedId) (chars : List Byte) : OperandBound.Statement (.lineMarker f chars) := by
  intro h
  simp only [Instr.wf, decide_eq_true_eq] at h
  simp only [operandBytes]
  omega

theorem OperandBound.sampleData (f : FeedId) (chars : List Byte) : OperandBound.Statement (.sampleData f chars) := by
  intro h
  simp only [Instr.wf, decide_eq_true_eq] at h
  simp only [operandBytes]
  omega

theorem OperandBound.lineEnd (f : FeedId) : OperandBound.Statement (.lineEnd f) := by
  intro _; simp [operandBytes]

theorem OperandBound.metadataPacket (f : FeedId) (chars : List Byte) : OperandBound.Statement (.metadataPacket f chars) := by
  intro h
  cases chars with
  | nil => simp [operandBytes]
  | cons count items =>
    have := count.isLt
    have h : 1 + items.length ≤ 1 + 7 * count.toNat := of_decide_eq_true h
    simp only [operandBytes, List.length_cons]
    omega

theorem OperandBound.lossDeadlineExpiry (f : FeedId) : OperandBound.Statement (.lossDeadlineExpiry f) := by
  intro _; simp [operandBytes]

theorem OperandBound.refPulseEdge : OperandBound.Statement .refPulseEdge := by
  intro _; simp [operandBytes]

theorem OperandBound.timeLoadWaitExpiry : OperandBound.Statement .timeLoadWaitExpiry := by
  intro _; simp [operandBytes]

theorem OperandBound.readCompletion (c : Completion) : OperandBound.Statement (.readCompletion c) := by
  intro h
  obtain ⟨n, r⟩ := c
  cases r with
  | data bytes =>
    simp only [Instr.wf, decide_eq_true_eq] at h
    simp only [operandBytes]
    omega
  | error => simp [operandBytes]

theorem OperandBound.readTimeout : OperandBound.Statement .readTimeout := by
  intro _; simp [operandBytes]

theorem OperandBound.linkBurstComplete : OperandBound.Statement .linkBurstComplete := by
  intro _; simp [operandBytes]

theorem OperandBound.browseBandComplete : OperandBound.Statement .browseBandComplete := by
  intro _; simp [operandBytes]

theorem OperandBound.load (mask : BitVec 16) : OperandBound.Statement (.load mask) := by
  intro _; simp [operandBytes]

theorem OperandBound.loadCommon (mask : BitVec 16) : OperandBound.Statement (.loadCommon mask) := by
  intro _; simp [operandBytes]

theorem OperandBound.arm (mask : BitVec 16) : OperandBound.Statement (.arm mask) := by
  intro _; simp [operandBytes]

theorem OperandBound.stop (mask : BitVec 16) : OperandBound.Statement (.stop mask) := by
  intro _; simp [operandBytes]

theorem OperandBound.halt (mask : BitVec 16) : OperandBound.Statement (.halt mask) := by
  intro _; simp [operandBytes]

theorem OperandBound.abort (mask : BitVec 16) : OperandBound.Statement (.abort mask) := by
  intro _; simp [operandBytes]

theorem OperandBound.refill (mask : BitVec 16) : OperandBound.Statement (.refill mask) := by
  intro _; simp [operandBytes]

theorem OperandBound.feedReset (mask : BitVec 16) : OperandBound.Statement (.feedReset mask) := by
  intro _; simp [operandBytes]

theorem OperandBound.start (mask : BitVec 16) : OperandBound.Statement (.start mask) := by
  intro _; simp [operandBytes]

theorem OperandBound.standby (mask : BitVec 16) : OperandBound.Statement (.standby mask) := by
  intro _; simp [operandBytes]

theorem OperandBound.timeLoad (mask : BitVec 16) : OperandBound.Statement (.timeLoad mask) := by
  intro _; simp [operandBytes]

theorem OperandBound.attentionIgnored (word : BitVec 32) : OperandBound.Statement (.attentionIgnored word) := by
  intro _; simp [operandBytes]

theorem OperandBound.noticeWrite (word : BitVec 32) : OperandBound.Statement (.noticeWrite word) := by
  intro _; simp [operandBytes]

theorem OperandBound.noticeMaskWrite (word : BitVec 32) : OperandBound.Statement (.noticeMaskWrite word) := by
  intro _; simp [operandBytes]

theorem OperandBound.partStatusWrite (word : BitVec 32) : OperandBound.Statement (.partStatusWrite word) := by
  intro _; simp [operandBytes]

theorem OperandBound.pageBaseWrite (high : Bool) (word : BitVec 32) : OperandBound.Statement (.pageBaseWrite high word) := by
  intro _; simp [operandBytes]

theorem OperandBound.refCountLowRead : OperandBound.Statement .refCountLowRead := by
  intro _; simp [operandBytes]

theorem OperandBound.ignoredRegisterWrite (offset : BitVec 8) (word : BitVec 32) : OperandBound.Statement (.ignoredRegisterWrite offset word) := by
  intro _; simp [operandBytes]

theorem OperandBound.powerOnReset : OperandBound.Statement .powerOnReset := by
  intro _; simp [operandBytes]

theorem OperandBound.hostLinkReset : OperandBound.Statement .hostLinkReset := by
  intro _; simp [operandBytes]

end Sys2Proof.Laws
end

