-- ==== Sys2Proof/Machine/Symbols.lean ====
section
/-! DEFINITION. Lane characters (R179): which symbol a control character begins, how many data characters the symbol takes,
and the lane commands that a run of characters is. The lane receiver does this ahead of the Feed Receiver; its commands are
what the queue holds. -/

namespace Sys2Proof.Machine

/-- R179: a character of a feed lane, as the lane receiver tells the two kinds apart. -/
inductive LaneChar where
  | control (code : Byte)
  | data (value : Byte)
deriving DecidableEq, Repr

/-- R179: the symbols of a lane. -/
inductive Symbol where
  | idle
  | frameHeader
  | lineMarker
  | sampleData
  | lineEnd
  | metadataPacket
deriving DecidableEq, Repr

/-- R179: the symbol a control character begins; none for a code the table does not list. -/
def parseControl (code : Byte) : Option Symbol :=
  match code.toNat with
  | 0x01 => some .idle
  | 0x02 => some .frameHeader
  | 0x03 => some .lineMarker
  | 0x04 => some .sampleData
  | 0x05 => some .lineEnd
  | 0x06 => some .metadataPacket
  | _ => none

/-- R179: how many data characters a symbol takes, whose first ones are `chars`. -/
def Symbol.length (chars : List Byte) : Symbol → Nat
  | .idle | .lineEnd => 0
  | .frameHeader => 12
  | .lineMarker => 2
  | .sampleData => 5
  | .metadataPacket => Instr.packetLength (chars.headD 0)

/-- R179, section 1.2: the commands of a symbol on lane `f` for which the data characters `chars` arrived before it ended or
was cut off; characters behind its last field are out of place. A Frame Header is a start, and a last field if that
arrives. Idle is no command. -/
def Symbol.commands (f : FeedId) (chars : List Byte) (sym : Symbol) : List Instr :=
  let taken := chars.take (sym.length chars)
  match sym with
  | .idle => []
  | .frameHeader => .frameHeaderStart f :: (if taken.length = 12 then [.frameHeader f taken] else [])
  | .lineMarker => [.lineMarker f taken]
  | .sampleData => [.sampleData f taken]
  | .lineEnd => [.lineEnd f]
  | .metadataPacket => [.metadataPacket f taken]

/-- The commands of characters that follow the symbol `current`, given with the data characters that have arrived for it.
Idle characters are disregarded wherever they fall, and with them control characters that begin no symbol (log entry 7);
any other control character ends the symbol in progress; a data character with no symbol is out of place. -/
def spellSymbols (f : FeedId) : Option (Symbol × List Byte) → List LaneChar → List Instr
  | current, [] => (current.map fun p => p.1.commands f p.2).getD []
  | current, .data b :: rest => spellSymbols f (current.map fun p => (p.1, p.2 ++ [b])) rest
  | current, .control code :: rest =>
    match parseControl code with
    | none | some .idle => spellSymbols f current rest
    | some sym => (current.map fun p => p.1.commands f p.2).getD [] ++ spellSymbols f (some (sym, [])) rest

/-- R179: the lane commands of a run of characters on lane `f` that ends between symbols or at a signal loss. -/
def laneCommands (f : FeedId) (chars : List LaneChar) : List Instr := spellSymbols f none chars

end Sys2Proof.Machine
end

