-- ==== Sys2Proof/Laws/Symbols.lean ====
section
/-! SUPPORT. What the spelling of lane characters can do: every command it gives is well formed, and Idle characters change
nothing (R179). -/

namespace Sys2Proof.Machine

/-- The commands of one symbol are well formed. -/
theorem Symbol.commands_wf (f : FeedId) (chars : List Byte) (sym : Symbol) : ∀ c ∈ sym.commands f chars, c.wf = true := by
  intro c hc
  cases sym with
  | idle => simp [Symbol.commands] at hc
  | lineEnd => simp [Symbol.commands] at hc; simp [hc, Instr.wf]
  | frameHeader =>
    simp only [Symbol.commands, List.mem_cons] at hc
    rcases hc with rfl | hc
    · rfl
    · split at hc
      · rename_i h; simp at hc; simp [hc, Instr.wf]; simpa using h
      · simp at hc
  | lineMarker => simp [Symbol.commands, Symbol.length] at hc; simp [hc, Instr.wf]
  | sampleData => simp [Symbol.commands, Symbol.length] at hc; simp [hc, Instr.wf]
  | metadataPacket =>
    simp only [Symbol.commands, List.mem_singleton] at hc
    subst hc
    cases chars with
    | nil => rfl
    | cons b bs =>
      simp only [Symbol.length, List.headD_cons, Instr.packetLength, Nat.add_comm 1, List.take_succ_cons, Instr.wf,
        List.length_take, decide_eq_true_eq]
      omega

/-- Every command that a run of characters spells is well formed. -/
theorem laneCommands_wf (f : FeedId) (chars : List LaneChar) : ∀ c ∈ laneCommands f chars, c.wf = true := by
  have hend : ∀ (cur : Option (Symbol × List Byte)), ∀ c ∈ (cur.map fun p => p.1.commands f p.2).getD [], c.wf = true := by
    intro cur c hc
    cases cur with
    | none => simp at hc
    | some p => exact Symbol.commands_wf f p.2 p.1 c hc
  have : ∀ (l : List LaneChar) (cur : Option (Symbol × List Byte)), ∀ c ∈ spellSymbols f cur l, c.wf = true := by
    intro l
    induction l with
    | nil => intro cur c hc; exact hend cur c (by simpa [spellSymbols] using hc)
    | cons a l ih =>
      intro cur c hc
      cases a with
      | data b => exact ih _ c (by simpa [spellSymbols] using hc)
      | control code =>
        simp only [spellSymbols] at hc
        split at hc
        · exact ih _ c hc
        · exact ih _ c hc
        · rcases List.mem_append.mp hc with h | h
          · exact hend cur c h
          · exact ih _ c h
  exact this chars none

/-- Idle characters are disregarded wherever they fall. -/
theorem laneCommands_idle (f : FeedId) (chars : List LaneChar) :
    laneCommands f (chars.filter fun c => c != .control 0x01) = laneCommands f chars := by
  have : ∀ (l : List LaneChar) (cur : Option (Symbol × List Byte)),
      spellSymbols f cur (l.filter fun c => c != .control 0x01) = spellSymbols f cur l := by
    intro l
    induction l with
    | nil => intro cur; rfl
    | cons a l ih =>
      intro cur
      by_cases h : a = .control 0x01
      · subst h
        simpa [spellSymbols, parseControl] using ih cur
      · rw [List.filter_cons_of_pos (by simpa using h)]
        cases a with
        | data b => simp only [spellSymbols, ih]
        | control code => simp only [spellSymbols, ih]
  exact this chars none

end Sys2Proof.Machine
end

