-- ==== Sys2Proof/Tests/Slice0.lean ====
section
/-! SUPPORT. The model's own tests: the operand checks, the spec's worked numbers, a few single steps, and a witness for the
hypotheses of every statement that has some. Each test names the part of the spec its numbers are from. -/

namespace Sys2Proof.Tests

open Sys2Proof.Machine

/-! ## Operand checks: one ill-formed command for each check, and a well-formed one beside it -/

theorem test_wf_header : (Instr.frameHeader 0 (List.replicate 11 0)).wf = false ∧
    (Instr.frameHeader 0 (List.replicate 12 0)).wf = true := by decide
theorem test_wf_marker : (Instr.lineMarker 0 [1, 2, 3]).wf = false ∧ (Instr.lineMarker 0 [1, 2]).wf = true := by decide
theorem test_wf_sample : (Instr.sampleData 0 [1, 2, 3, 4, 5, 6]).wf = false ∧ (Instr.sampleData 0 [1]).wf = true := by
  decide
theorem test_wf_packet : (Instr.metadataPacket 0 (1 :: List.replicate 8 0)).wf = false ∧
    (Instr.metadataPacket 0 (1 :: List.replicate 7 0)).wf = true := by decide
theorem test_wf_completion : (Instr.readCompletion ⟨0, .data (List.replicate 65 0)⟩).wf = false ∧
    (Instr.readCompletion ⟨7, .data (List.replicate 64 0)⟩).wf = true := by decide
theorem test_wf_ignored : (Instr.ignoredRegisterWrite 0x14 0).wf = false ∧ (Instr.ignoredRegisterWrite 0x18 0).wf = true := by
  decide

/-! ## Worked numbers of the spec -/

/-- Worked conversions, label to day number (chapter 3). -/
theorem test_label_to_day : RateClass.fps25.dayNumber ⟨10, 0, 0, 0⟩ = 900000 ∧
    RateClass.drop30.dayNumber ⟨1, 23, 45, 12⟩ = 150612 ∧ RateClass.drop30.dayNumber ⟨0, 10, 0, 0⟩ = 17982 ∧
    RateClass.drop60.dayNumber ⟨23, 59, 59, 59⟩ = 5178815 := by decide

/-- Worked conversions, day number to label (chapter 3). -/
theorem test_day_to_label : RateClass.drop30.label 150612 = ⟨1, 23, 45, 12⟩ ∧
    RateClass.drop30.label 16184 = ⟨0, 9, 0, 2⟩ ∧ RateClass.drop30.label 17982 = ⟨0, 10, 0, 0⟩ ∧
    RateClass.drop60.label 5178815 = ⟨23, 59, 59, 59⟩ := by decide

/-- Lock interval at 29.97 drop (section 2.5), with the wrap of the third row. -/
theorem test_lock_interval : inTolerance .drop30 10 (600901700 - 600000000 : Count).toNat = true ∧
    inTolerance .drop30 10 (600901850 - 600000000 : Count).toNat = false ∧
    inTolerance .drop30 10 (600556 - 281474976410656 : Count).toNat = true := by decide

/-- Forward distance (R48's table). -/
theorem test_forward : RateClass.fps25.forward 900000 900000 = 0 ∧ RateClass.fps25.forward 900000 899999 = 2159999 ∧
    RateClass.fps25.atOrAfter 900000 899999 = false := by decide

/-- Luma, plain and dithered (section 7.7): F = 4, S = 9,608. -/
theorem test_luma : browseSample 4 9608 32 = 150 ∧ browseSample 4 9608 54 = 150 ∧ browseSample 4 9608 58 = 151 ∧
    browseSample 8 65472 128 = 255 ∧ browseSample 3 4617 25 = 128 ∧ browseSample 3 4617 28 = 129 := by decide

/-- Browse geometry at 1366 × 770 with F = 3 (section 7.7). -/
theorem test_geometry : (Geometry.mk 1366 770 .fps25 3).wb = 454 ∧ (Geometry.mk 1366 770 .fps25 3).hb = 256 ∧
    (Geometry.mk 1366 770 .fps25 3).bfb = 232448 := by decide

/-- The places of m = 14 and m = 15 at positions 0 and 5 (section 7.7). -/
theorem test_dither : ditherEntry 1 2 = 14 ∧ ditherEntry 3 0 = 15 ∧ ditherEntry (0 + 1) (1 + 1) = 14 ∧
    ditherEntry (2 + 1) (3 + 1) = 15 := by decide

/-! ## Small states -/

/-- MARKED, rate class 25, 256 × 144 pixels. -/
def marked : Settings where
  framing := .marked
  rate := .fps25
  w := 256
  h := 144
  topSkip := 0
  leftSkip := 0
  lossWindow := 1
  tolerance := 500
  gapLimit := 1
  ceiling := 2
  factor := 2
  lag := 1
  dither := false
  ditherCode := 0
  ditherPhase := 0
  stride := 0

/-- A receiver of an enabled feed with its signal present. -/
def receiver (l : Link) (n : Settings) : Receiver :=
  { Receiver.reset with enabled := true, signal := true, link := l, hasLocked := l = .locked, active := some n }

def burst : Burst := ⟨.recordPort, .message 0x1000 [1], none⟩

/-- The part in RUNNING with a busy link, nothing asked, and receiver `r` on feed 0. -/
def busy (r : Receiver) : State :=
  { State.reset with
    front := { Front.reset with
      receivers := upd Front.reset.receivers 0 fun _ => r
      attention := { Attention.reset with part := .running } }
    eng := { Engine.reset with arbiter := ⟨some burst, .none⟩ } }

/-- The ten data characters of a header of class 25, 256 × 144, label 10:00:00:00, with their check sum (R179). -/
def header : List Byte := [1, 1, 0, 1, 0x90, 0, 0, 0, 0, 10, 0x42, 0xA6]

theorem test_header : headerGood header = true := by decide

/-- The state after a command. -/
def after (c : Instr) (s : State) : State :=
  match exec c s with
  | .next t => t
  | .fault _ | .refused _ => s

/-- COUNTED, with two lines skipped. -/
def counted : Settings := { marked with framing := .counted, topSkip := 2 }

/-- A sheet header: browse disabled, IMMEDIATE, ON_REQUEST, one index entry posted. -/
def sheet : SheetHeader := ⟨0x5441_4B45, false, .immediate, 0, .onRequest, 0, 0, 0, 1⟩

/-- Take 1 of feed 0 in state `st`. -/
def take (st : TakeState) : Take := { Take.fresh 1 0 0x800 sheet 0 (0x1000, 1) [] with state := st }

/-- A frame in reduction, none of whose lines is formed. -/
def reduction : Reduction := ⟨5, 1, 9, 0, 2, 2, 1, 4, 0, 0, false, 0, 0, 0, none⟩

/-- The part at work in RUNNING: receiver `r` and take `k`, Live, on feed 0; every block waits for the busy link. -/
def work (r : Receiver) (k : Take) : State :=
  { busy r with eng := { Engine.reset with
    takes := [k]
    nextId := 2
    places := upd Engine.reset.places 0 fun p => { p with live := some k.id }
    mover := ⟨.moving 6 0, none⟩
    reducer := ⟨none, none, some reduction, none⟩
    writer := ⟨some (1, .asking), none⟩
    arbiter := ⟨some burst, .none⟩ } }

/-- Changes feed 0's receiver, the engine, the Attention Unit or feed 0's timer of a state. -/
def withReceiver (s : State) (g : Receiver → Receiver) : State := s.onReceiver 0 g
def withEng (s : State) (g : Engine → Engine) : State := s.act fun _ e => g e
def withTimer (s : State) (g : FeedTimer → FeedTimer) : State := s.onFront fun x => x.updTimer 0 g

/-- The slot of a frame in FILLING of take 1, feed 0. -/
def filling : Slot := ⟨.filling, 0, 1, 0, false, false, 0, .unwritten, .undecided, none⟩

/-- A slot that drains. -/
def draining : Slot := { filling with state := .draining }

/-- Feed 0 has an open frame in slot 0 with the lines `received`. -/
def withOpen (s : State) (received : List Nat) : State := withEng s fun e => { e with
  slots := upd e.slots 0 fun _ => some filling
  held := upd e.held 0 fun _ => [0]
  opened := upd e.opened 0 fun _ => some ⟨0, received, received.length, false, 2, 0⟩ }

/-- The outstanding read with number 7 and `remaining` ticks left. -/
def withRead (s : State) (r : ReadRequest) (remaining : Nat) : State := withEng s fun e =>
  { e with port := { e.port with outstanding := some ⟨7, r, remaining, true⟩ } }

/-! ## Single steps -/

/-- R166: START in STANDBY with PAGE_BASE 0 sets PAGE_FAULT. -/
theorem test_start_fault : (after (.start 0) State.reset).front.flags.pageFault = true := by decide

/-- R25, R26: the count wraps at an idle step. -/
theorem test_tick_wraps :
    (State.tick { State.reset with front := { Front.reset with refCount := 281474976710655 } }).front.refCount = 0 := by
  decide +kernel

/-- R27: the low word is read, the high latch takes bits 32 to 47. -/
theorem test_ref_count : let t := (after .refCountLowRead
      { State.reset with front := { Front.reset with refCount := 0x123456789ABC } });
    t.front.readData = 0x56789ABC ∧ registerWord t 0x1C = 0x1234 := by decide +kernel

/-- R5: an enabled DARK feed goes to SEEKING when its signal returns. -/
theorem test_signal_return :
    ((after (.signalReturn 0) (busy { receiver .dark marked with signal := false })).front.receivers[0]).link = .seeking := by
  decide

/-- R8, R55: a frame admitted into a RECORDING take is granted slot 0 at position 0. -/
theorem test_admit : let t := (after (.frameHeader 0 header)
      (work { receiver .locked marked with inHeader := true } (take .recording)));
    t.eng.slots[0] = some filling ∧ t.eng.held[0] = [0] ∧ (t.eng.take? 1).map (·.position) = some 1 := by decide +kernel

/-- R43: the label 10:00:00:00 of the header is day number 900,000 under class 25, and 900,001 is expected next. -/
theorem test_expected : ((after (.frameHeader 0 header)
      (work { receiver .locked marked with inHeader := true } (take .recording))).front.receivers[0]).expected =
    some 900001 := by decide +kernel

/-- R13: a short line repeats its last pair: line 1 of 256 pixels holds 128 copies of the one pair received. -/
theorem test_short_line : let t := (after (.lineEnd 0)
      (withOpen (busy { receiver .locked marked with line := .numbered 1 [0x1] }) []));
    t.front.dram.read 1024 = 1 ∧ t.front.dram.read 2040 = 1 ∧ t.front.dram.read 2048 = 0 ∧
      (t.eng.opened[0]).map (·.padded) = some true := by decide +kernel

/-- R19: an item whose value is six zero bytes removes its tag. -/
theorem test_metadata : (((busy { receiver .locked marked with metadata := [⟨3, 7⟩] }).front.receivers[0]).applyItem
    ⟨3, 0⟩).metadata = [] := by decide

/-- R159: code 0x13 names no request: ATTENTION_IGNORED is set. -/
theorem test_attention_ignored :
    (after (.attentionIgnored 0x00130001) (busy (receiver .locked marked))).front.flags.attentionIgnored = true := by
  decide +kernel

/-- R171: a host clear leaves a condition cause that still holds. -/
theorem test_notice_clear : ((after (.noticeWrite 0x1) (withEng (busy (receiver .locked marked)) fun e =>
    { e with notices := { e.notices with causes := upd e.notices.causes 0 fun _ => 0x90 } })).eng.notices.causes[0]) =
    0x80 := by decide +kernel

/-- R179: a Line Marker with an Idle inside and a Line End, with their control characters 0x03, 0x01 and 0x05; a data
character with no symbol is out of place. -/
theorem test_symbols : laneCommands 2 [.data 9, .control 0x03, .data 7, .control 0x01, .data 0, .control 0x05] =
    [.lineMarker 2 [7, 0], .lineEnd 2] := by decide

/-- R179: a Frame Header cut off after 3 characters by Sample data of 5 characters, each with its control character. -/
theorem test_symbols_cut : laneCommands 0 [.control 0x02, .data 1, .data 1, .data 0, .control 0x04, .data 1, .data 2,
    .data 3, .data 4, .data 5] = [.frameHeaderStart 0, .sampleData 0 [1, 2, 3, 4, 5]] := by decide

/-- R147: a completion of an earlier read leaves the outstanding one as it is; the one that answers it ends it. -/
theorem test_late_completion : let s := withRead (busy .reset) .timeValue 5;
    (after (.readCompletion ⟨6, .error⟩) s).eng.port.outstanding = s.eng.port.outstanding ∧
      (after (.readCompletion ⟨6, .error⟩) s).front.flags.linkFault = false ∧
      (after (.readCompletion ⟨7, .error⟩) s).eng.port.outstanding = none ∧
      (after (.readCompletion ⟨7, .error⟩) s).front.flags.linkFault = true := by decide +kernel

/-- R65, R136: a frame in REDUCING that moves is SKIPPED_MOVED; one of a decided outcome is DISABLED in a take with browse
disabled. -/
theorem test_moved_reducing :
    (Slot.moved 2 0 false { filling with browse := .reducing }).browse = .decided .skippedMoved ∧
      (Slot.moved 2 0 true { filling with browse := .reducing }).browse = .decided .skippedMoved ∧
      (Slot.moved 2 0 false { filling with browse := .decided .written }).browse = .decided .disabled := by decide

/-- R83, R149: the end of an ARMED Live take withdraws its reread, an asked one and a granted one; another take's stays. -/
theorem test_abort_withdraws_reread : let k := take .armed;
    let s := withRead (withEng (work .reset k) fun e => { e with port := { e.port with
      reads := [.posted 0 1 0x800 false, .posted 1 3 0x900 false] } }) (.posted 0 1 0x800 true) 5;
    let e := s.eng.endTakes s.front 0 .aborted;
    e.port.reads = [.posted 1 3 0x900 false] ∧ e.port.outstanding.map (·.wanted) = some false ∧
      (e.take? 1).map (·.state) = some .cancelled := by decide +kernel

/-- R94: a check that falls short starves no take that has been found exhausted, and leaves no check behind. -/
theorem test_exhausted_stays :
    let k := { take .recording with exhausted := some .index, essence := ⟨0, 0, []⟩, geom := some ⟨64, 32, .fps25, 2⟩ };
    let g := { k with essence := ⟨32, 32, []⟩, refeed := some .evaluate };
    let e := fun t => (withEng (withOpen (work .reset t) []) fun e =>
      e.updPlaces 0 fun p => { p with closing := [4, 5, 6, 7] }).eng;
    (e k).moverCheck Front.reset 0 false = (e k).setMover .idle ∧
      ((e g).refeedCheck Front.reset g false).take? 1 = some { g with refeed := none } := by decide +kernel

/-- R94: an index check that falls short starves a take, but not one found exhausted: Live is passed, and one in the Closing
list discards. -/
theorem test_exhausted_index :
    let q : List Record := [⟨0, .fed 0⟩];
    let f := fun st ex => (work .reset (take .recording)).eng.writerFinding
      { take st with queue := q, exhausted := ex, index := ⟨1, 1, []⟩ } false;
    f .recording none = .starve ∧ f .recording (some .essence) = .pass ∧ f .closing (some .essence) = .exhaust := by decide

/-- R96, R107: the browse counts of a progress block and of END are 0 in a take with browse disabled. -/
theorem test_browse_counts : ∀ on ∈ [true, false],
    let k := { take .recording with browseOn := on, browseSkipped := 3 };
    fieldAt (progressBytes k) 8 4 = (if on then 3 else 0) ∧
      fieldAt (recordBytes k 0 .endRecord) 26 2 = if on then 3 else 0 := by decide

/-! ## Witnesses: states and operands that meet a statement's hypotheses -/

theorem witness_StepRunsFrontCommand :
    ({ State.reset with pending := [.refPulseEdge] } : State).pending = .refPulseEdge :: [] := rfl

/-- One tick left everywhere. -/
def dueSoon : State :=
  { State.reset with front := { Front.reset with
    pendingLoad := some ⟨7, 1⟩
    timers := upd Front.reset.timers 0 fun k => { k with deadline := some 1 } } }

theorem witness_IdleStepTicks : dueSoon.pending = [] ∧ dueSoon.atRest = true ∧
    (∀ f : FeedId, dueSoon.front.timers[f].deadline ≠ some 0) ∧
    (∀ l, dueSoon.front.pendingLoad = some l → l.wait ≠ 0) ∧
    (∀ o, dueSoon.eng.port.outstanding = some o → o.remaining ≠ 0) := by
  refine ⟨rfl, by decide, by decide, ?_, ?_⟩
  · intro l h; cases h; decide
  · intro o h; cases h

theorem witness_ResetCommandsResult : (Instr.powerOnReset = .powerOnReset ∨ Instr.powerOnReset = .hostLinkReset) ∧
    (Instr.hostLinkReset = .powerOnReset ∨ Instr.hostLinkReset = .hostLinkReset) := by decide

/-- At rest, with nothing outstanding, nothing sent and nothing pending; and with a read outstanding that another
completion does not answer: hypotheses of every clause. -/
theorem witness_NothingToActOn : (State.reset.atRest = true ∧ State.reset.eng.port.outstanding = none ∧
    State.reset.eng.arbiter.busy = none ∧ State.reset.front.pendingLoad = none) ∧
    (let s := withRead (busy .reset) .timeValue 5;
      s.atRest = true ∧ s.eng.port.outstanding = some ⟨7, .timeValue, 5, true⟩ ∧ 6 ≠ 7 ∧ 8 ≠ 7) := by decide

theorem witness_RefCountLowReadResult : State.reset.atRest = true := by decide

/-- Taken in STANDBY with an empty write list; ignored in RUNNING; and a part at rest. -/
theorem witness_PageBaseAndStatusWrites :
    (State.reset.atRest = true ∧
    (State.reset.front.attention.part = .standby ∧ State.reset.eng.port.writes = []) ∧
    (busy .reset).atRest = true ∧
    ¬((busy .reset).front.attention.part = .standby ∧ (busy .reset).eng.port.writes = [])) ∧
    (State.reset.atRest = true) := by
  decide

/-- A part at rest with a busy link. -/
theorem witness_NoticeRegisterWrites :
    (busy .reset).atRest = true ∧ (busy .reset).linkBusy = true := by
  decide

theorem witness_SymbolsDiscarded : (busy .reset).atRest = true ∧ (busy .reset).front.receivers[0].enabled = false := by
  decide

/-- A DARK feed and a LOCKED one: both clauses. -/
theorem witness_SignalReturnResult :
    (let s := busy { receiver .dark marked with signal := false };
      s.atRest = true ∧ s.linkBusy = true ∧ s.front.receivers[0].enabled = true ∧ s.front.receivers[0].link = .dark) ∧
    (let s := busy (receiver .locked marked);
      s.atRest = true ∧ s.linkBusy = true ∧
        ¬(s.front.receivers[0].enabled = true ∧ s.front.receivers[0].link = .dark)) := by decide

/-- A SEEKING link, an OFF feed, and deadlines due on a SEEKING and on a DARK link: each clause. -/
theorem witness_UnlockedLossResult :
    (let s := withTimer (busy (receiver .seeking marked)) fun k => { k with deadline := some 0 };
      s.atRest = true ∧ s.linkBusy = true ∧ s.front.receivers[0].enabled = true ∧ s.front.receivers[0].signal = true ∧
        s.front.receivers[0].link = .seeking ∧ s.front.timers[0].deadline = some 0) ∧
    (let s := busy .reset;
      s.atRest = true ∧ s.linkBusy = true ∧
        ¬(s.front.receivers[0].enabled = true ∧ s.front.receivers[0].signal = true)) ∧
    (let s := withTimer (busy { receiver .dark marked with signal := false }) fun k => { k with deadline := some 0 };
      s.atRest = true ∧ s.linkBusy = true ∧ s.front.timers[0].deadline = some 0 ∧
        s.front.receivers[0].link = .dark) := by decide

/-- A LOCKED link with its deadline due, no open frame, and a RECORDING take whose queue has room: both commands and the
last clause. -/
theorem witness_LeavingLockedResult :
    let s := withTimer (work (receiver .locked marked) (take .recording)) fun k => { k with deadline := some 0 };
    s.front.receivers[0].enabled = true ∧ s.front.receivers[0].signal = true ∧ s.front.receivers[0].link = .locked ∧
      s.front.receivers[0].waiting = none ∧ s.front.attention.quiet = true ∧ s.eng.busyWaiting = true ∧
      s.front.timers[0].deadline = some 0 ∧ s.front.receivers[0].hasLocked = true ∧
      s.eng.recordingTake 0 = some (take .recording) ∧ s.eng.opened[0] = none ∧ s.eng.budget 0 < 488 := by decide

/-- A take with browse disabled; one with browse enabled, below the lag limit and at it, with an older frame waiting in
slot 1; and a frame without a line. -/
theorem witness_FrameHeaderStartClosesFrame :
    (∀ received ∈ [[3], []], let s := withOpen (work (receiver .locked marked) (take .recording)) received;
      s.front.receivers[0].enabled = true ∧ s.front.receivers[0].signal = true ∧ s.front.receivers[0].inHeader = false ∧
        s.eng.opened[0] = some ⟨0, received, received.length, false, 2, 0⟩ ∧ s.eng.slots[0] = some filling ∧
        filling.state = .filling ∧ s.eng.take? 1 = some (take .recording) ∧ (take .recording).browseOn = false ∧
        (s.eng.waiting 0).head? = none ∧ s.front.attention.quiet = true ∧ s.eng.busyWaiting = true) ∧
    (∀ lag ∈ [1, 2], let k := { take .recording with browseOn := true };
      let w := withOpen (work (receiver .locked marked) k) [3];
      let s := (withEng w fun e => { e with
        slots := upd e.slots 1 fun _ => some { filling with state := .ready }
        held := upd e.held 0 fun _ => [1, 0] }).onFront fun x =>
          { x with reduce := upd x.reduce 0 fun _ => some ⟨lag, false, 4, 0⟩ };
      s.front.receivers[0].enabled = true ∧ s.front.receivers[0].signal = true ∧ s.front.receivers[0].inHeader = false ∧
        s.eng.opened[0] = some ⟨0, [3], 1, false, 2, 0⟩ ∧ s.eng.slots[0] = some filling ∧ s.eng.take? 1 = some k ∧
        k.browseOn = true ∧ filling.browse = .undecided ∧ s.eng.waiting 0 = 1 :: [] ∧
        (∀ j ∈ (s.eng.waiting 0).take ((s.eng.waiting 0).length + 1 - s.front.lag 0),
          s.eng.reducer.check.map (·.1) ≠ some j) ∧
        s.front.lag 0 = lag ∧ (s.eng.waiting 0).length ≤ s.front.lag 0 ∧ (s.eng.held[0]).Nodup ∧
        s.eng.held[0] = [1] ++ [0] ∧ s.front.attention.quiet = true ∧ s.eng.busyWaiting = true) := by decide +kernel

/-- No open frame, and a header in progress whose check sum is wrong. -/
theorem witness_FrameHeaderStartsOrBreaks :
    (let s := busy (receiver .locked marked);
    s.atRest = true ∧ s.front.receivers[0].enabled = true ∧ s.front.receivers[0].signal = true ∧
      s.eng.opened[0] = none) ∧
    (let s := busy { receiver .locked marked with inHeader := true };
    let chars := header.set 11 0;
    s.atRest = true ∧ s.front.receivers[0].enabled = true ∧ s.front.receivers[0].signal = true ∧
      s.front.receivers[0].inHeader = true ∧ chars.length = 12 ∧
      fieldAt chars 10 2 ≠ (0xA5A5 + ((chars.take 10).map (·.toNat)).sum) % 65536) := by
  decide

/-- A pending disabling block, and pending settings of the same format and of another, on a LOCKED link with a header in
progress and a deadline that is due. -/
theorem witness_PendingSettingsApplied :
    ∀ b ∈ [Block.disabling, .enabling { marked with lag := 2 }, .enabling { marked with w := 258 }],
    let s := withTimer (work { receiver .locked marked with waiting := some b, inHeader := true } (take .recording))
      fun k => { k with deadline := some 0 };
    s.front.receivers[0].enabled = true ∧ s.front.receivers[0].signal = true ∧ s.front.receivers[0].link = .locked ∧
      s.front.receivers[0].active = some marked ∧ s.front.receivers[0].waiting = some b ∧
      s.front.receivers[0].hasLocked = true ∧ s.front.receivers[0].inHeader = true ∧
      s.front.timers[0].deadline = some 0 ∧ s.front.attention.quiet = true ∧ s.eng.busyWaiting = true ∧
      header.length = 12 ∧ headerGood header = true ∧ fieldAt header 2 2 = marked.w ∧ 258 ≠ marked.w := by decide

/-- A history of seven captures, which the header makes eight; and one of nine, which it leaves at nine. -/
theorem witness_FrameHeaderTimerResult : ∀ n ∈ [7, 9],
    let s := withTimer (busy { receiver .locked marked with inHeader := true }) fun k =>
      { k with history := List.replicate n 0 };
    s.front.receivers[0].enabled = true ∧ s.front.receivers[0].signal = true ∧ s.front.receivers[0].inHeader = true ∧
      s.front.receivers[0].waiting = none ∧ s.front.receivers[0].active = some marked ∧ header.length = 12 ∧
      headerGood header = true ∧ s.front.attention.quiet = true ∧ s.front.timers[0].history.length = n := by decide

theorem witness_FrameHeaderSeekingResult :
    let s := busy { receiver .seeking marked with inHeader := true, candidate := true };
    s.front.receivers[0].enabled = true ∧ s.front.receivers[0].signal = true ∧ s.front.receivers[0].inHeader = true ∧
      s.front.receivers[0].waiting = none ∧ s.front.receivers[0].active = some marked ∧
      s.front.receivers[0].link = .seeking ∧ header.length = 12 ∧ headerGood header = true ∧
      parseRate (fieldAt header 0 1) = some marked.rate ∧ fieldAt header 2 2 = marked.w ∧
      fieldAt header 4 2 = marked.h ∧ s.eng.places[0].live = none ∧ s.front.attention.quiet = true := by decide

theorem witness_FrameHeaderMismatchResult :
    let n := { marked with w := 258 };
    let s := busy { receiver .seeking n with inHeader := true, candidate := true };
    s.front.receivers[0].enabled = true ∧ s.front.receivers[0].signal = true ∧ s.front.receivers[0].inHeader = true ∧
      s.front.receivers[0].waiting = none ∧ s.front.receivers[0].active = some n ∧ header.length = 12 ∧
      headerGood header = true ∧ fieldAt header 2 2 ≠ n.w ∧ s.front.attention.quiet = true ∧
      (work { receiver .seeking n with inHeader := true } (take .recording)).eng.busyWaiting = true := by decide

theorem witness_FrameHeaderSlottedResult :
    let s := work { receiver .locked marked with inHeader := true } { take .recording with position := 2 ^ 32 - 2 };
    let k := { take .recording with position := 2 ^ 32 - 2 };
    s.front.receivers[0].enabled = true ∧ s.front.receivers[0].signal = true ∧ s.front.receivers[0].inHeader = true ∧
      s.front.receivers[0].waiting = none ∧ s.front.receivers[0].active = some marked ∧
      s.front.receivers[0].link = .locked ∧ header.length = 12 ∧ headerGood header = true ∧
      parseRate (fieldAt header 0 1) = some marked.rate ∧ fieldAt header 2 2 = marked.w ∧
      fieldAt header 4 2 = marked.h ∧ s.eng.liveTake 0 = some k ∧ k.state = .recording ∧ k.feed = 0 ∧
      k.stopMode = .onRequest ∧ s.eng.places[0].staged = none ∧ s.eng.places[0].deferredStop = none ∧
      k.position < 2 ^ 32 - 1 ∧ (∀ r ∈ k.queue, r.body ≠ .endRecord) ∧ s.eng.held[0].length < marked.ceiling ∧
      s.eng.slots[0] = none ∧ (∀ j : SlotId, j < 0 → s.eng.slots[j] ≠ none) ∧ s.front.attention.quiet = true ∧
      s.eng.busyWaiting = true := by decide

/-- The feed at its ceiling, and no slot FREE: either form of the last premise. -/
theorem witness_FrameHeaderOverrunResult :
    let s := work { receiver .locked marked with inHeader := true } (take .recording);
    let k := take .recording;
    (s.front.receivers[0].enabled = true ∧ s.front.receivers[0].signal = true ∧ s.front.receivers[0].inHeader = true ∧
      s.front.receivers[0].waiting = none ∧ s.front.receivers[0].active = some marked ∧
      s.front.receivers[0].link = .locked ∧ header.length = 12 ∧ headerGood header = true ∧
      parseRate (fieldAt header 0 1) = some marked.rate ∧ fieldAt header 2 2 = marked.w ∧
      fieldAt header 4 2 = marked.h ∧ k.state = .recording ∧ k.stopMode = .onRequest ∧ k.position < 2 ^ 32 - 1) ∧
    (∀ t ∈ [withEng s fun e => { e with held := upd e.held 0 fun _ => [0, 1] },
        withEng s fun e => { e with slots := Vector.replicate 96 (some filling) }],
      t.eng.liveTake 0 = some k ∧ t.eng.places[0].staged = none ∧ t.eng.places[0].deferredStop = none ∧
        (marked.ceiling ≤ t.eng.held[0].length ∨ ∀ j : SlotId, t.eng.slots[j] ≠ none) ∧
        t.front.attention.quiet = true ∧ t.eng.busyWaiting = true) := by decide

/-- An ARMED take that begins, IMMEDIATE and at the bounds of AT_TIME, and one that does not; a slot FREE, the feed at its
ceiling, and no slot FREE. -/
theorem witness_FrameHeaderBeginsTake :
    (∀ p ∈ [(StartMode.immediate, (0 : BitVec 64), true), (.atTime, 0, true), (.atTime, 2 ^ 47 + 1, true),
        (.atTime, 2 ^ 47, false), (.atTime, 1, false), (.contiguous, 0, false)],
      let k := { take .armed with startMode := p.1, startParam := p.2.1 };
      let s := work { receiver .locked marked with inHeader := true } k;
      s.front.receivers[0].enabled = true ∧ s.front.receivers[0].signal = true ∧ s.front.receivers[0].inHeader = true ∧
        s.front.receivers[0].waiting = none ∧ s.front.receivers[0].active = some marked ∧
        s.front.receivers[0].link = .locked ∧ s.eng.liveTake 0 = some k ∧ k.state = .armed ∧ k.feed = 0 ∧
        k.position = 0 ∧ k.queue = [] ∧ k.stopMode ≠ .afterFrames ∧ s.front.attention.quiet = true ∧
        s.eng.busyWaiting = true ∧ (p.2.2 = true ↔ k.startMode = .immediate ∨
          k.startMode = .atTime ∧ (s.front.refCount - k.startParam.setWidth 48).toNat < 2 ^ 47)) ∧
    header.length = 12 ∧ headerGood header = true ∧ parseRate (fieldAt header 0 1) = some marked.rate ∧
    fieldAt header 2 2 = marked.w ∧ fieldAt header 4 2 = marked.h ∧
    (let s := work (receiver .locked marked) (take .armed);
      s.eng.held[0].length < marked.ceiling ∧ s.eng.slots[0] = none ∧
      (withEng s fun e => { e with held := upd e.held 0 fun _ => [0, 1] }).eng.held[0].length = marked.ceiling ∧
      ∀ j : SlotId, (withEng s fun e => { e with slots := Vector.replicate 96 (some filling) }).eng.slots[j] ≠ none) := by
  decide

/-- A RECORDING take with a stop of each mode, at the bound of AT_TIME, and a Staged take of each start mode or none behind
it; with room in the Closing list and without. -/
theorem witness_RecordingTakeMembership :
    ∀ stop ∈ [(StopMode.onRequest, (0 : BitVec 64)), (.atTime, 0), (.atTime, 1), (.atTimecode, 0), (.afterFrames, 1)],
    ∀ start ∈ [StartMode.immediate, .atTime, .atTimecode, .contiguous], ∀ closing ∈ [[4, 5, 6], [4, 5, 6, 7]],
    ∀ staged ∈ [none, some 2],
      let k := { take .recording with stopMode := stop.1, stopParam := stop.2 };
      let g := { take .staged with id := 2, startMode := start };
      let e := (withEng (work .reset k) fun e => { e with
        takes := [k, g]
        places := upd e.places 0 fun _ => ⟨some 1, staged, closing, [], none⟩ }).eng;
      e.liveTake 0 = some k ∧ k.state = .recording ∧ e.places[0].deferredStop = none ∧ k.position < 2 ^ 32 - 1 ∧
        e.stagedTake 0 = (if staged.isSome then some g else none) ∧ g.id ≠ k.id ∧ g.stopMode ≠ .afterFrames ∧
        e.places[0].staged.isSome = (e.stagedTake 0).isSome ∧ e.places[0].closing.length = closing.length := by
  decide +kernel

/-- Either framing, a complete pair and an incomplete one. -/
theorem witness_LineSymbolsResult : ∀ n ∈ [marked, counted],
    let s := busy (receiver .locked n);
    s.atRest = true ∧ s.front.receivers[0].enabled = true ∧ s.front.receivers[0].signal = true ∧
      s.front.receivers[0].active = some n ∧ 5 ≤ (List.replicate 5 (0 : Byte)).length ∧
      (List.replicate 4 (0 : Byte)).length < 5 ∧ marked.framing = .marked ∧ counted.framing = .counted := by decide

/-- Under either framing: a line that leaves the frame open, and one that completes it. -/
theorem witness_LineEndStoresLine :
    (let s := withOpen (busy { receiver .locked marked with line := .numbered 143 [7] }) [];
      s.atRest = true ∧ s.front.receivers[0].enabled = true ∧ s.front.receivers[0].signal = true ∧
        s.front.receivers[0].inHeader = false ∧ s.front.receivers[0].active = some marked ∧ marked.framing = .marked ∧
        marked.w % 2 = 0 ∧ s.front.receivers[0].line = .numbered 143 [7] ∧ ([7] : List PixelPair) ≠ [] ∧
        s.eng.opened[0] = some ⟨0, [], 0, false, 2, 0⟩ ∧ missingLines marked.h (insertNat 143 []) ≠ []) ∧
    (let s := withOpen (busy { receiver .locked counted with line := .counted [7] }) [0, 1, 2];
      s.atRest = true ∧ s.front.receivers[0].active = some counted ∧ counted.framing = .counted ∧
        s.eng.opened[0] = some ⟨0, [0, 1, 2], 3, false, 2, 0⟩ ∧ 2 ≤ 3 ∧ ¬counted.h ≤ 3 - 2 + 1 ∧
        s.front.receivers[0].line.counts.drop (0 / 2) = [7]) ∧
    (let n := { marked with h := 2 };
      let s := withOpen (work { receiver .locked n with line := .numbered 1 [7] } (take .recording)) [0];
      s.front.receivers[0].active = some n ∧ missingLines n.h (insertNat 1 [0]) = [] ∧ s.eng.slots[0] = some filling ∧
        s.eng.take? filling.take = some (take .recording) ∧ (take .recording).browseOn = false ∧
        s.front.attention.quiet = true ∧ s.eng.busyWaiting = true) ∧
    (let n := { counted with h := 2 };
      let s := withOpen (work { receiver .locked n with line := .counted [7] } (take .recording)) [0, 1, 2];
      s.front.receivers[0].active = some n ∧ n.h ≤ 3 - 2 + 1 ∧ s.eng.slots[0] = some filling ∧
        s.eng.opened[0] = some ⟨0, [0, 1, 2], 3, false, 2, 0⟩ ∧ s.eng.take? filling.take = some (take .recording) ∧
        s.front.attention.quiet = true ∧ s.eng.busyWaiting = true) := by decide +kernel

/-- No open frame; a line that is no numbered one; the second of two skipped lines; an active line with nothing behind
LeftSkip; and active line H − 1 without a pair, in a frame with a line and in one without. -/
theorem witness_LineEndStoresNothing :
    (let s := busy (receiver .locked marked);
      s.atRest = true ∧ s.front.receivers[0].enabled = true ∧ s.front.receivers[0].signal = true ∧
        s.front.receivers[0].inHeader = false ∧ s.front.receivers[0].active = some marked ∧ s.eng.opened[0] = none) ∧
    (let s := withOpen (busy { receiver .locked marked with line := .discarding }) [];
      s.atRest = true ∧ s.front.receivers[0].active = some marked ∧ marked.framing = .marked ∧
        s.front.receivers[0].line = .discarding ∧ s.front.receivers[0].inHeader = false) ∧
    (let s := withOpen (busy (receiver .locked counted)) [0];
      s.atRest = true ∧ s.front.receivers[0].active = some counted ∧ counted.framing = .counted ∧
        s.eng.opened[0] = some ⟨0, [0], 1, false, 2, 0⟩ ∧ s.front.receivers[0].inHeader = false) ∧
    (let s := withOpen (busy (receiver .locked counted)) [0, 1];
      s.atRest = true ∧ s.eng.opened[0] = some ⟨0, [0, 1], 2, false, 2, 0⟩ ∧
        s.front.receivers[0].line.counts.length ≤ 0 / 2 ∧ 2 - 2 + 1 < counted.h) ∧
    (∀ received ∈ [[5], []], let n := { counted with h := 1 };
      let s := withEng (withOpen (work (receiver .locked n) (take .recording)) []) fun e =>
        { e with opened := upd e.opened 0 fun _ => some ⟨0, received, 2, false, 2, 0⟩ };
      s.front.receivers[0].active = some n ∧ n.framing = .counted ∧
        s.eng.opened[0] = some ⟨0, received, 2, false, 2, 0⟩ ∧ s.front.receivers[0].line.counts.length ≤ 0 / 2 ∧
        n.h ≤ 2 - 2 + 1 ∧ s.eng.slots[0] = some filling ∧ s.eng.take? filling.take = some (take .recording) ∧
        s.front.attention.quiet = true ∧ s.eng.busyWaiting = true) := by decide +kernel

/-- Item counts at their bounds; a record of seven items, which takes an eighth, and one of eight, which does not. -/
theorem witness_MetadataPacketAndItems :
    (let s := busy (receiver .locked marked);
    s.atRest = true ∧ s.front.receivers[0].enabled = true ∧ s.front.receivers[0].signal = true ∧
      (∀ c ∈ [(0 : Byte), 9], c = 0 ∨ 8 < c.toNat) ∧ (∀ c ∈ [(1 : Byte), 8], 1 ≤ c.toNat ∧ c.toNat ≤ 8)) ∧
    ((let m := (List.range 7).map fun n => (⟨BitVec.ofNat 8 (n + 1), 1⟩ : Item);
      metadataGood m ∧ m.length < 8 ∧ itemValue m 9 = none) ∧
    (let m := (List.range 8).map fun n => (⟨BitVec.ofNat 8 (n + 1), 1⟩ : Item);
      metadataGood m ∧ m.length = 8 ∧ itemValue m 9 = none ∧ itemValue m 8 ≠ none)) := by
  unfold metadataGood
  decide

theorem witness_TimeLoadEndsResult :
    let s := (busy .reset).onFront fun x => { x with pendingLoad := some ⟨5, 0⟩ };
    s.atRest = true ∧ s.linkBusy = true ∧ s.front.pendingLoad = some ⟨5, 0⟩ ∧ (⟨5, 0⟩ : TimeLoad).wait = 0 := by decide

theorem witness_ReadFailureResult : let s := withRead (busy .reset) .timeValue 0;
    s.eng.port.outstanding = some ⟨7, .timeValue, 0, true⟩ ∧ s.front.attention.global = none ∧
      (∀ g : FeedId, s.front.attention.pending[g] = none) := by decide

/-- A settings block of 32 bytes: MARKED, class 25, F 2, 256 × 144. -/
def settingsBlock : List Byte := [1, 1, 1, 2, 0, 1, 0x90, 0] ++ List.replicate 24 0

/-- What a block parses to, with the index of the field that fails. -/
def parsed (bytes : List Byte) : Option Block × Nat :=
  match parseSettings bytes with
  | .ok b => (some b, 0)
  | .error index => (none, index)

/-- The settings that `settingsBlock` gives. -/
def blockSettings : Settings := { marked with tolerance := 1 }

/-- A feed in every condition the clauses tell apart: OFF; a Live take, with a block of the same format and of another;
enabled and LOCKED without a take; SEEKING, with the same format and with another. -/
theorem witness_SettingsReadResult :
    parsed settingsBlock = (some (.enabling blockSettings), 0) ∧ parsed (settingsBlock.set 0 0) = (some .disabling, 0) ∧
    parsed (settingsBlock.set 3 5) = (none, 12) ∧ settingsBlock.length = 32 ∧
    (∀ r ∈ [Receiver.reset, receiver .locked marked, receiver .seeking marked, receiver .seeking { marked with h := 145 }],
      ∀ places ∈ [Places.none, { Places.none with live := some 1 }],
      let s := withEng (withRead (busy r) (.settings 0) 5) fun e => e.updPlaces 0 fun _ => places;
      s.eng.port.outstanding = some ⟨7, .settings 0, 5, true⟩ ∧ s.front.attention.onlyFeed 0 = true ∧
        s.front.receivers[0] = r ∧ r.waiting = none ∧ s.eng.places[0].any = places.live.isSome) ∧
    Receiver.reset.enabled = false ∧ (receiver .locked marked).active = some marked ∧
    (receiver .locked marked).link = .locked ∧ (receiver .seeking marked).link ≠ .locked ∧
    (marked.framing = blockSettings.framing ∧ marked.rate = blockSettings.rate ∧ marked.w = blockSettings.w ∧
      marked.h = blockSettings.h) ∧ 145 ≠ blockSettings.h := by decide +kernel

/-- A disabling block, one with every checked field accepted, and one for each field that is not. -/
theorem witness_SettingsInRange :
    parsed (settingsBlock.set 0 0) = (some .disabling, 0) ∧
    parsed settingsBlock = (some (.enabling blockSettings), 0) ∧
    (∀ p ∈ [(1, 2), (2, 3), (4, 4), (6, 5), (3, 12)], parsed (settingsBlock.set p.1 9) = (none, p.2)) := by
  decide +kernel

/-- A time value; a page header that holds and one that does not. -/
theorem witness_GlobalReadsResult :
    (let s := withRead (busy .reset) .timeValue 1350000;
    s.eng.port.outstanding = some ⟨7, .timeValue, 1350000, true⟩ ∧ (List.replicate 8 (0 : Byte)).length = 8 ∧
      s.front.attention.global = none ∧ (∀ g : FeedId, s.front.attention.pending[g] = none)) ∧
    (let s := withRead (busy .reset) .pageHeader 1;
    s.eng.port.outstanding = some ⟨7, .pageHeader, 1, true⟩ ∧ s.front.attention.global = none ∧
      (∀ g : FeedId, s.front.attention.pending[g] = none) ∧
      (let bytes : List Byte := [1, 0, 0, 0, 0, 0x20, 0, 0];
        bytes.length = 8 ∧ fieldAt bytes 0 4 = 1 ∧ fieldAt bytes 4 4 = 8192) ∧
      (let bytes : List Byte := [1, 0, 0, 0, 0, 0x10, 0, 0];
        bytes.length = 8 ∧ ¬(fieldAt bytes 0 4 = 1 ∧ fieldAt bytes 4 4 = 8192))) := by
  decide

/-- ARM in service with each of its reads outstanding; addresses, headers and entries on either side of each check. -/
theorem witness_ArmReadsResult :
    (∀ p ∈ [(ReadRequest.stagedAddress 0, Service.armAddress 0), (.sheetHeader 0 0x1000, .armHeader 0 0x1000),
        (.armEntry 0 0x1000 0, .armEntries 0 0x1000 { sheet with indexPosted := 2 } 0 []),
        (.armEntry 0 0x1000 1, .armEntries 0 0x1000 { sheet with indexPosted := 2 } 1 [0])],
      let s := (withRead (work .reset (take .recording)) p.1 5).onAttention fun u => { u with
        service := some p.2, pending := upd u.pending 0 fun _ => some ⟨.arm, true⟩ };
      s.eng.port.outstanding = some ⟨7, p.1, 5, true⟩ ∧ s.front.attention.onlyFeed 0 = true ∧
        s.eng.busyWaiting = true ∧ s.front.attention.service = some p.2 ∧
        s.front.attention.pending[0] = some ⟨.arm, true⟩ ∧ (∃ k ∈ s.eng.takes, k.sheet = 0x800) ∧
        (∀ k ∈ s.eng.takes, k.sheet ≠ 0x1000) ∧ ∀ k ∈ s.eng.takes, k.id ≠ s.eng.nextId) ∧
    (∀ v ∈ [0, 0x400, 0x800, 0x1000], (leBytes 8 v).length = 8 ∧ leNat (leBytes 8 v) = v) ∧
    (∀ start ∈ [0, 1, 4, 5], ∀ index ∈ [0, 1],
      let bytes : List Byte := ((((List.replicate 27 0).set 5 (BitVec.ofNat 8 start)).set 6 1).set 26 (BitVec.ofNat 8 index));
      bytes.length = 27 ∧ fieldAt bytes 5 1 = start ∧ fieldAt bytes 6 1 = 1 ∧ fieldAt bytes 26 1 = index) ∧
    (∀ p ∈ [(0, 1), (1, 1), (0, 0)], let bytes := leBytes 8 p.1 ++ leBytes 8 p.2;
      bytes.length = 16 ∧ fieldAt bytes 0 8 = p.1 ∧ fieldAt bytes 8 4 = p.2) := by decide +kernel

/-- A slot that drains and one that does not, read by the burst, with nothing else left to do once it is sent; and a burst
without a slot. -/
theorem witness_LinkBurstCompleteResult : ∀ slot ∈ [filling, draining],
    let b : Burst := { burst with slot := some 0 };
    let s := withEng (busy .reset) fun e => { e with
      slots := upd e.slots 0 fun _ => some slot
      held := upd e.held 0 fun _ => [0]
      arbiter := ⟨some b, .none⟩ };
    s.eng.arbiter.busy = some b ∧ b.slot = some 0 ∧ s.eng.slots[0] = some slot ∧
      State.atRest { s with eng := s.eng.burstDone b } = true ∧ (slot.state = .draining ↔ slot = draining) ∧
      burst.slot = none := by
  decide +kernel

theorem witness_BrowseBandCompleteResult :
    let k := { take .recording with id := 9, geom := some ⟨4, 2, .fps25, 2⟩ };
    let s := work (receiver .locked marked) k;
    s.atRest = true ∧ s.linkBusy = true ∧ s.eng.reducer.frame = some reduction ∧ reduction.sums = none ∧
      reduction.nextLine < reduction.hb ∧ s.eng.reducer.line = none ∧ s.eng.take? reduction.take = some k ∧
      k.geom = some ⟨4, 2, .fps25, 2⟩ := by decide

/-- A part in STANDBY, one in STARTING, one in RUNNING with an empty mask, and codes at the bounds of those that name no
request. -/
theorem witness_AttentionWriteDecoded :
    (State.reset.atRest = true ∧ State.reset.front.attention.part ≠ .running) ∧
    (let s := State.reset.onAttention fun u => { u with part := .starting };
      s.atRest = true ∧ s.front.attention.part = .starting) ∧
    ((busy .reset).atRest = true ∧ (0 : BitVec 16) = 0) ∧
    (∀ code ∈ [(0 : BitVec 8), 9, 15, 19, 255], code = 0 ∨ 8 < code.toNat ∧ code.toNat < 16 ∨ 18 < code.toNat) := by
  decide

/-- A feed with a pending request, and an OFF feed. -/
theorem witness_FeedRequestsRefused :
    (let s := (busy .reset).onAttention fun u =>
        { u with pending := upd u.pending 0 fun _ => some ⟨.arm, true⟩, service := some (.armAddress 0) };
      s.front.attention.part = .running ∧ s.front.attention.pending[0] ≠ none ∧ s.front.attention.quiet = true) ∧
    (let s := busy .reset;
      s.front.attention.part = .running ∧ s.front.attention.clear = true ∧ s.front.receivers[0].enabled = false) := by
  decide

theorem witness_ReadingRequestsServed : let s := busy (receiver .locked marked);
    s.atRest = true ∧ s.linkBusy = true ∧ s.front.attention.part = .running ∧ s.front.attention.clear = true ∧
      s.front.receivers[0].enabled = true := by decide

/-- STANDBY with a good and a bad PAGE_BASE, RUNNING with a feed enabled and with every feed OFF, with a pending load and
without one. -/
theorem witness_StartAndStandbyResult :
    (let s := (busy .reset).onFront fun x => { x with pageBase := 8192, attention := { x.attention with part := .standby } };
      s.atRest = true ∧ s.linkBusy = true ∧ s.front.attention.part = .standby ∧ s.front.pageBase ≠ 0 ∧
        s.front.pageBase.toNat % 8192 = 0) ∧
    (State.reset.atRest = true ∧ State.reset.front.attention.part = .standby ∧ State.reset.front.pageBase = 0) ∧
    (let s := busy (receiver .locked marked);
      s.front.attention.part = .running ∧ s.front.attention.clear = true ∧
        ∃ f : FeedId, s.front.receivers[f].enabled = true) ∧
    (∀ l ∈ [none, some ⟨7, 5⟩], let s := (busy .reset).onFront fun x => { x with pendingLoad := l };
      s.front.attention.part = .running ∧ s.front.attention.clear = true ∧ s.linkBusy = true ∧ s.front.pendingLoad = l ∧
        ∀ f : FeedId, s.front.receivers[f].enabled = false) := by decide

/-- Three Closing takes, with room for a fourth, and four. -/
theorem witness_StopResult : ∀ closing ∈ [[2, 3, 4], [2, 3, 4, 5]],
    let s := withEng (work (receiver .locked marked) (take .recording)) fun e =>
      e.updPlaces 0 fun p => { p with closing := closing };
    s.front.attention.part = .running ∧ s.front.attention.clear = true ∧ s.front.receivers[0].enabled = true ∧
      s.eng.liveTake 0 = some (take .recording) ∧ (take .recording).state = .recording ∧
      s.eng.places[0].staged = none ∧ s.eng.places[0].deferredStop = none ∧ s.eng.busyWaiting = true ∧
      ((s.eng.feedRecords 0).filter fun r => !r.body.isFrame).length < 488 ∧
      s.eng.places[0].closing.length = closing.length := by decide

theorem witness_CancelArmedResult : let s := work (receiver .locked marked) (take .armed);
    s.front.attention.part = .running ∧ s.front.attention.clear = true ∧ s.front.receivers[0].enabled = true ∧
      s.eng.liveTake 0 = some (take .armed) ∧ (take .armed).state = .armed ∧ s.eng.places[0].staged = none ∧
      s.eng.places[0].closing = [] ∧ s.eng.busyWaiting = true := by decide

theorem witness_FeedResetResult :
    let s := withEng (work (receiver .locked marked) (take .recording)) fun e =>
      e.updPlaces 0 fun _ => Places.none;
    s.front.attention.part = .running ∧ s.front.attention.clear = true ∧ s.eng.places[0].live = none ∧
      s.eng.places[0].staged = none ∧ s.eng.places[0].closing = [] ∧ s.eng.busyWaiting = true := by decide

/-- A feed with no take to reread, and one with a RECORDING take. -/
theorem witness_RefillResult :
    (let s := busy (receiver .locked marked);
      s.front.attention.part = .running ∧ s.front.attention.clear = true ∧ s.front.receivers[0].enabled = true ∧
        s.eng.places[0].closing = [] ∧ s.eng.recordingTake 0 = none) ∧
    (let s := work (receiver .locked marked) (take .recording);
      s.front.attention.part = .running ∧ s.front.attention.clear = true ∧ s.front.receivers[0].enabled = true ∧
        s.eng.places[0].closing = [] ∧ s.eng.recordingTake 0 = some (take .recording) ∧ (take .recording).feed = 0 ∧
        s.eng.busyWaiting = true ∧ ∀ r ∈ s.eng.port.reads, r.rereads 1 = false) := by decide

/-- The part at work for another feed, or with nothing of another feed's to take up; the takes are take 1, RECORDING, and
take 2, which closes, with index space of one page or none. -/
def ending (idle : Bool) (space : List Extent) : State :=
  let k : Take := { take .recording with index := ⟨1, 1, space⟩ }
  let g : Take := { take .closing with id := 2, index := ⟨1, 1, space⟩ }
  let o : Take := { take .recording with id := 3, feed := 5 }
  withEng (withOpen (work (receiver .locked marked) k) []) fun e => { e with
    takes := [k, g, o]
    places := upd e.places 0 fun _ => ⟨some 1, none, [2], [], none⟩
    mover := if idle then ⟨.moving 0 0, none⟩ else e.mover
    writer := if idle then ⟨some (2, .asking), none⟩ else ⟨some (3, .asking), none⟩ }

theorem witness_EndTakeEffect :
    (∀ space ∈ [[], [⟨0, 0x1000, 1⟩]], let k : Take := { take .recording with index := ⟨1, 1, space⟩ };
      (ending true space).eng.take? k.id = some k ∧ (32 * (k.indexWritten + 1) ≤ k.index.bytes ↔ space ≠ [])) ∧
    (∀ space ∈ [[], [⟨0, 0x1000, 1⟩]], ∀ idle ∈ [true, false],
      let s := ending idle space;
      let p := s.eng.places[0];
      s.front.receivers[0].enabled = true ∧ s.front.attention.part = .running ∧ s.front.attention.clear = true ∧
        s.eng.busyWaiting = true ∧
        ((s.eng.recordingTake 0).toList ++ p.closing.filterMap s.eng.take?).map (·.id) = [1, 2] ∧
        (p.live.toList ++ p.staged.toList ++ p.closing).Nodup ∧
        ((s.eng.feedRecords 0).filter fun r => !r.body.isFrame).length + 2 ≤ 488) ∧
    (let s := ending false [];
      s.eng.slots[0] = some filling ∧ filling.take = 1 ∧ (∀ i : SlotId, i ≠ 0 → s.eng.slots[i] = none) ∧
        s.eng.mover.state = .moving 6 0 ∧ s.eng.reducer.frame = some reduction ∧ reduction.slot = 5 ∧
        s.eng.reducer.check = none ∧ s.eng.writer.inHand = some (3, .asking) ∧
        ∀ k ∈ s.eng.takes, k.id = 3 → k.feed ≠ 0) ∧
    (let s := ending true [];
      (∀ i : SlotId, i ≠ 0 → s.eng.slots[i] = none) ∧ s.eng.mover.state = .moving 0 0 ∧
        ∀ k ∈ s.eng.takes, k.id = 3 → k.queue = []) := by decide +kernel

/-- No Live take; an ARMED one; a RECORDING one with room in the Closing list and without, with a stop deferred already; a
Staged take stands behind each. -/
theorem witness_ArmPlacesTake : let t := { take .armed with id := 9 };
    t.startMode = .immediate ∧
    (let e := (busy .reset).eng;
      (∀ k ∈ e.takes, k.id ≠ t.id) ∧ e.stagedTake 0 = none ∧ e.liveTake 0 = none) ∧
    (∀ st ∈ [TakeState.armed, .recording], ∀ closing ∈ [[], [4, 5, 6], [4, 5, 6, 7]], ∀ stop ∈ [none, some .stopped],
      let g := { take .staged with id := 2 };
      let e := (withEng (work .reset (take st)) fun e => { e with
        takes := [take st, g]
        places := upd e.places 0 fun _ => ⟨some 1, some 2, closing, [], stop⟩ }).eng;
      (∀ k ∈ e.takes, k.id ≠ t.id) ∧ e.stagedTake 0 = some g ∧ e.places[0].live ≠ some g.id ∧
        e.places[0].staged ≠ some t.id ∧ e.liveTake 0 = some (take st) ∧ (take st).state = st ∧ e.places[0].deferredStop = stop ∧
        e.places[0].closing.length = closing.length ∧
        ((e.feedRecords 0).filter fun r => !r.body.isFrame).length < 488) := by decide +kernel

/-- A queue of 487 records, with room for one more, and one of 488, with none. -/
theorem witness_RecordBudget : ∀ n ∈ [487, 488],
    let k := { take .recording with queue := (List.range n).map fun i => ⟨i, .fed 0⟩ };
    let e := (work .reset k).eng;
    (e.take? k.id).isSome = true ∧ e.budget k.feed = n := by decide +kernel

/-- The last byte of the first of two extents, and the first byte of the second. -/
theorem witness_LocateFindsExtent : let l : List Extent := [⟨0, 0x1000, 1⟩, ⟨2, 0x9000, 1⟩];
    locate l 4095 = some (⟨0, 0x1000, 1⟩, 4095) ∧ locate l 4096 = some (⟨2, 0x9000, 1⟩, 0) ∧ locate l 8192 = none := by
  decide

theorem witness_WrittenLayouts :
    let st : Settlement := ⟨0, 0, .disabled, false, false, 0⟩;
    let r : FrameRecord := ⟨0, Timecode.zero, 0, false, 0, some st⟩;
    r.settled = some st := rfl

theorem witness_FrameRecordGrant :
    let r : FrameRecord := ⟨0, Timecode.zero, 0, false, 0, some ⟨0, 0, .disabled, false, false, 0⟩⟩;
    let t := { take .recording with queue := [⟨0, .frame r⟩] };
    (work .reset t).eng.take? t.id = some t ∧ t.queue = ⟨0, .frame r⟩ :: [] := by decide

/-- The first byte of a frame of 8,192 bytes, and the first of its last block; an outcome open, and one decided. -/
theorem witness_EssenceBurstGrant : let t := { take .recording with geom := some ⟨64, 32, .fps25, 2⟩ };
    let e := (withOpen (work .reset t) []).eng;
    e.slots[0] = some filling ∧ e.take? filling.take = some t ∧ 0 < t.mfb ∧ 4096 < t.mfb ∧
      min (4096 - 4096 % 4096) (t.mfb - 4096) + 4096 = t.mfb ∧ filling.browse = .undecided ∧
      (let ready : Slot := { filling with state := .ready, browse := .decided .disabled, placement := some (0, 0) };
        (e.updSlot 0 fun _ => ready).slots[0] = some ready) := by decide

/-- A free link; nothing waits, a write waits, a read waits, a record waits, and each picture writer waits. -/
theorem witness_ArbiterOrder :
    let e := Engine.reset;
    e.arbiter.busy = none ∧ e.port.writes = [] ∧ e.port.reads = [] ∧ e.port.outstanding = none ∧
      (∀ n, e.writer.inHand ≠ some (n, .asking)) ∧ (∀ i next, e.mover.state ≠ .moving i next) ∧
      e.reducer.frame = none ∧
      (e.ask .message).port.writes = [.message] ∧ (e.askRead .timeValue).port.reads = [.timeValue] ∧
      (e.setInHand (some (1, .asking))).writer.inHand = some (1, .asking) ∧
      (e.setMover (.moving 0 0)).mover.state = .moving 0 0 ∧
      (let e' : Engine := { e with reducer := ⟨none, none, some reduction, some ⟨0, 0, [1]⟩⟩ };
        e'.reducer.frame = some reduction ∧ e'.reducer.line = some ⟨0, 0, [1]⟩) := by
  refine ⟨rfl, rfl, rfl, rfl, ?_, ?_, rfl, rfl, rfl, rfl, rfl, rfl, rfl⟩
  · intro n h; cases h
  · intro i next h; cases h

/-- Either bound of the day numbers and of the labels. -/
theorem witness_LabelRoundTrip : 0 < RateClass.dayCount .drop30 ∧ 2589407 < RateClass.dayCount .drop30 ∧
    RateClass.valid .drop30 ⟨0, 0, 0, 0⟩ = true ∧ RateClass.valid .drop30 ⟨23, 59, 59, 29⟩ = true := by decide

theorem witness_ConcealmentCopies : ([1, 5] : List Nat) ≠ [] ∧ ([1, 5] : List Nat).Pairwise (· < ·) ∧ 0 ∉ [1, 5] ∧
    6 ∉ [1, 5] := by decide

theorem witness_DitherCycle : ((16 : Nat) = 16 ∨ (16 : Nat) = 32 ∨ (16 : Nat) = 64) ∧ (15 : Nat) < 16 := by decide

theorem witness_DramStaysCanonical : State.reset.front.dram.wf ∧ step State.reset = .next State.reset.tick := by
  refine ⟨by decide, rfl⟩

theorem witness_FeedsStayGood : State.reset.front.feedsGood ∧ step State.reset = .next State.reset.tick := by
  refine ⟨fun f => ?_, rfl⟩
  simp [State.reset, Front.reset, feedGood, Receiver.reset, FeedTimer.reset, Receiver.off, Tally.bounded, Tally.zero,
    metadataGood]

theorem witness_PoolStaysGood : State.reset.eng.poolGood ∧ step State.reset = .next State.reset.tick := by
  refine ⟨fun f => ?_, rfl⟩
  simp [State.reset, Engine.reset, Engine.heldBy]

end Sys2Proof.Tests
end

section
/-! Shared rules for the lane commands: what each operation of the Feed Receiver makes of the front, written as a change of
the front alone, so that later proofs read a receiver, a timer or a reduction context off it. -/

namespace Sys2Proof.Machine

/-! ## Changes of one receiver -/

theorem Front.updReceiver_congr {x : Front} {f : FeedId} {g h : Receiver → Receiver}
    (hgh : g x.receivers[f] = h x.receivers[f]) : x.updReceiver f g = x.updReceiver f h := by
  simp only [Front.updReceiver, upd, hgh]

theorem Front.updReceiver_self {x : Front} {f : FeedId} {g : Receiver → Receiver}
    (h : g x.receivers[f] = x.receivers[f]) : x.updReceiver f g = x := by
  simp only [Front.updReceiver, upd_eq_self _ _ _ h]

theorem Front.updReceiver_updReceiver (x : Front) (f : FeedId) (g h : Receiver → Receiver) :
    (x.updReceiver f g).updReceiver f h = x.updReceiver f fun r => h (g r) := by
  simp [Front.updReceiver, upd_upd]

theorem State.onReceiver_congr {s : State} {f : FeedId} {g h : Receiver → Receiver}
    (hgh : g s.front.receivers[f] = h s.front.receivers[f]) : s.onReceiver f g = s.onReceiver f h := by
  simp only [State.onReceiver, State.onFront, Front.updReceiver_congr hgh]

theorem State.onReceiver_self {s : State} {f : FeedId} {g : Receiver → Receiver}
    (h : g s.front.receivers[f] = s.front.receivers[f]) : s.onReceiver f g = s := by
  simp only [State.onReceiver, State.onFront, Front.updReceiver_self h]

theorem State.onReceiver_onReceiver (s : State) (f : FeedId) (g h : Receiver → Receiver) :
    (s.onReceiver f g).onReceiver f h = s.onReceiver f fun r => h (g r) := by
  simp only [State.onReceiver, State.onFront, Front.updReceiver_updReceiver]

theorem State.receiver_eq (s : State) (f : FeedId) : s.receiver f = s.front.receivers[f] := rfl

/-! ## Symbols and link states -/

theorem State.setLink_front (f : FeedId) (l : Link) (s : State) :
    (s.setLink f l).front = s.front.updReceiver f fun r => { r with link := l } := by
  unfold State.setLink
  split
  · rename_i h
    rw [Front.updReceiver_self]
    rw [← State.receiver_eq, ← h]
  · rfl

/-- A change of link state asks at most one write. -/
theorem State.setLink_eng (f : FeedId) (l : Link) (s : State) :
    (s.setLink f l).eng = if (s.receiver f).link = l then s.eng else s.eng.ask (.link f) := by
  unfold State.setLink; split <;> rfl

/-- What a header in progress that is cut off makes of its receiver (R2, R3); `counts` says that a take records. -/
def Receiver.cutHeader (counts : Bool) (r : Receiver) : Receiver :=
  { r with
    inHeader := false
    tally := if r.inHeader && counts then { r.tally with broken := bump r.tally.broken } else r.tally }

theorem Receiver.cutHeader_of_none {r : Receiver} (h : r.inHeader = false) (counts : Bool) : r.cutHeader counts = r := by
  cases r
  cases h
  rfl

theorem State.breakHeader_eq {f : FeedId} {s : State} (h : s.front.receivers[f].inHeader = true) :
    s.breakHeader f = s.onReceiver f (Receiver.cutHeader (s.recording f)) :=
  State.onReceiver_congr (by simp only [Receiver.cutHeader, h, Bool.true_and])

theorem State.cutHeader_eq (f : FeedId) (s : State) :
    s.cutHeader f = s.onReceiver f (Receiver.cutHeader (s.recording f)) := by
  unfold State.cutHeader
  split
  · rename_i h
    exact State.breakHeader_eq h
  · rename_i h
    exact (State.onReceiver_self (Receiver.cutHeader_of_none (Bool.of_not_eq_true h) _)).symm

/-- What a signal loss makes of a receiver that takes symbols, before its link state changes (R6, R14). -/
def Receiver.loseSignal (counts : Bool) (r : Receiver) : Receiver :=
  { r.cutHeader counts with signal := false, line := .empty, candidate := false }

/-- SIGNAL_LOSS of a feed whose symbols are taken. -/
theorem execSignalLoss_of_listens {f : FeedId} {s : State} (he : s.front.receivers[f].enabled = true)
    (hs : s.front.receivers[f].signal = true) : exec (.signalLoss f) s = .next
      (if s.front.receivers[f].link = .locked then
        (s.onReceiver f (Receiver.loseSignal (s.recording f))).leaveLocked f .dark .dark
      else (s.onReceiver f (Receiver.loseSignal (s.recording f))).setLink f .dark).settle := by
  have hcut : ((s.onReceiver f fun r => { r with signal := false }).cutHeader f).onReceiver f
      (fun r => { r with line := .empty, candidate := false }) = s.onReceiver f (Receiver.loseSignal (s.recording f)) := by
    rw [State.cutHeader_eq, State.onReceiver_onReceiver, State.onReceiver_onReceiver]
    rfl
  show execSignalLoss f s = _
  unfold execSignalLoss
  dsimp only
  rw [if_pos (by simp [State.receiver_eq, Receiver.listens, he, hs, -Fin.getElem_fin]), hcut]
  rfl

/-- SIGNAL_LOSS of a feed whose symbols are not taken. -/
theorem execSignalLoss_of_not_listens {f : FeedId} {s : State}
    (h : ¬(s.front.receivers[f].enabled = true ∧ s.front.receivers[f].signal = true)) :
    exec (.signalLoss f) s = .next (s.onReceiver f fun r => { r with signal := false }).settle := by
  show execSignalLoss f s = _
  unfold execSignalLoss
  exact if_neg (by simpa [State.receiver_eq, Receiver.listens, -Fin.getElem_fin] using h)

/-! ## Settings -/

/-- The front once the settings `n` serve (R21, R123). -/
def Front.takeSettings (f : FeedId) (n : Settings) (x : Front) : Front :=
  { x.updReceiver f (fun r => { r with active := some n }) with
    reduce := upd x.reduce f fun _ => some n.reduceContext }

/-- Applying `n` to receiver `r` empties the receiver: the feed is OFF, or the format changes (R21). -/
def Receiver.restarts (n : Settings) (r : Receiver) : Bool := !r.enabled || formatChanged r.active n

/-- The front after settings with enable 1 have become active (R21, R31). -/
def Front.applyEnabling (f : FeedId) (n : Settings) (x : Front) : Front :=
  if x.receivers[f].restarts n then
    ((x.takeSettings f n).updReceiver f fun r =>
      { r.enabling with link := x.receivers[f].enabledLink }).updTimer f fun _ => .reset
  else x.takeSettings f n

/-- The front after a disabling block has been applied (R22, R31). -/
def Front.applyDisabling (f : FeedId) (x : Front) : Front :=
  (x.updReceiver f fun r => { r.disabling with link := .dark }).updTimer f fun _ => .reset

/-- The front after a settings block has become active. -/
def Front.applyBlock (f : FeedId) (x : Front) : Block → Front
  | .enabling n => x.applyEnabling f n
  | .disabling => x.applyDisabling f

theorem State.applyEnabling_eq (f : FeedId) (n : Settings) (s : State) :
    s.applyEnabling f n = if s.front.receivers[f].restarts n then
      (((((s.takeSettings f n).onReceiver f Receiver.enabling).setLink f s.front.receivers[f].enabledLink).clearTimer
        f).clearCommitted f).sync f
    else s.takeSettings f n := rfl

theorem State.applyEnabling_front (f : FeedId) (n : Settings) (s : State) :
    (s.applyEnabling f n).front = s.front.applyEnabling f n := by
  rw [State.applyEnabling_eq, Front.applyEnabling]
  split
  · show (((s.takeSettings f n).onReceiver f Receiver.enabling).setLink f _).front.updTimer f _ = _
    rw [State.setLink_front, State.onReceiver_front, Front.updReceiver_updReceiver]
    rfl
  · rfl

theorem State.applyDisabling_front (f : FeedId) (s : State) :
    (s.applyDisabling f).front = s.front.applyDisabling f := by
  show ((s.onReceiver f Receiver.disabling).setLink f .dark).front.updTimer f _ = _
  rw [State.setLink_front, State.onReceiver_front, Front.updReceiver_updReceiver]
  rfl

/-- A settings block becomes active. -/
def State.applyBlock (f : FeedId) (s : State) : Block → State
  | .enabling n => s.applyEnabling f n
  | .disabling => s.applyDisabling f

theorem State.applyBlock_front (f : FeedId) (s : State) (b : Block) :
    (s.applyBlock f b).front = s.front.applyBlock f b := by
  cases b with
  | disabling => exact State.applyDisabling_front f s
  | enabling n => exact State.applyEnabling_front f n s

theorem State.applyPending_of_none {f : FeedId} {s : State} (h : s.front.receivers[f].waiting = none) :
    s.applyPending f = s := by
  unfold State.applyPending
  rw [State.receiver_eq, h]

theorem State.applyPending_of_some {f : FeedId} {b : Block} {s : State} (h : s.front.receivers[f].waiting = some b) :
    s.applyPending f = (s.onReceiver f fun r => { r with waiting := none }).applyBlock f b := by
  unfold State.applyPending
  rw [State.receiver_eq, h]
  cases b <;> rfl

/-- A block handed over to a feed that is OFF or not LOCKED becomes active at once (R21). -/
theorem State.handOver_of_not_locked {f : FeedId} {s : State} (b : Block)
    (h : ¬(s.front.receivers[f].enabled = true ∧ s.front.receivers[f].link = .locked)) :
    s.handOver f b = (s.onReceiver f fun r => { r with waiting := none }).applyBlock f b := by
  unfold State.handOver
  dsimp only
  rw [State.receiver_eq, if_neg h, State.applyPending_of_some (by rw [State.onReceiver_front, Front.updReceiver_receivers,
    upd_same]), State.onReceiver_onReceiver]

theorem State.handOver_of_locked {f : FeedId} {s : State} (b : Block)
    (h : s.front.receivers[f].enabled = true ∧ s.front.receivers[f].link = .locked) :
    s.handOver f b = s.onReceiver f fun r => { r with waiting := some b } := by
  unfold State.handOver
  dsimp only
  rw [State.receiver_eq, if_pos h]

/-! ## Frames and headers -/

/-- The open frame of feed `f` has no line received, so that its close counts an EMPTY_FRAME (R17). -/
def Engine.openEmpty (e : Engine) (f : FeedId) : Bool := e.opened[f].any fun o => o.received.isEmpty

/-- The close of a frame counts an EMPTY_FRAME or conceals in card DRAM; it changes nothing else of the front. -/
theorem State.closeFrame_front (f : FeedId) (s : State) : (s.closeFrame f).front = { s.front with
    dram := (s.closeFrame f).front.dram
    receivers := upd s.front.receivers f fun r => if s.eng.openEmpty f then r.countEmpty else r } := by
  unfold State.closeFrame Engine.openEmpty
  split
  · rename_i h
    simp [h, upd_eq_self]
  · rename_i o h
    split
    · rename_i hr
      simp [h, hr, Front.updReceiver]
    · rename_i hr
      simp [h, hr, upd_eq_self]

theorem State.closeFrame_of_none {f : FeedId} {s : State} (h : s.eng.opened[f] = none) : s.closeFrame f = s := by
  unfold State.closeFrame
  rw [h]

theorem State.linkLoss_front (f : FeedId) (c : LossCause) (s : State) : (s.linkLoss f c).front = s.front := by
  unfold State.linkLoss
  split <;> rfl

theorem State.capture_front (f : FeedId) (s : State) :
    (s.capture f).front = s.front.updTimer f (FeedTimer.capture (s.front.settings f) s.front.refCount) := by
  unfold State.capture
  dsimp only
  split <;> rfl

theorem State.lock_front (f : FeedId) (s : State) : (s.lock f).front = s.front.updReceiver f fun r =>
    { r with
      candidate := false, hasLocked := true, link := .locked
      relock := if r.hasLocked then some s.front.refCount else r.relock } := by
  show ((s.onReceiver f _).setLink f .locked).front = _
  rw [State.setLink_front, State.onReceiver_front, Front.updReceiver_updReceiver]

/-- What the answer to an admission makes of the receiver (R9). -/
def Receiver.answered (r : Receiver) : Verdict → Receiver
  | .outside => r
  | .slotted => { r with tally := .zero, changed := [], relock := none }
  | .overrun => { r with tally := { r.tally with overrun := bump r.tally.overrun } }

/-- What the Feed Receiver hands over with an admitted frame placed at `p` (R8). -/
def State.admission (s : State) (f : FeedId) (p : Placed) : Admission :=
  let r := s.front.receivers[f]
  ⟨s.front.refCount, p, r.relock, r.tally, r.metadata, r.changed⟩

theorem State.admitFrame_eng (f : FeedId) (p : Placed) (s : State) :
    (s.admitFrame f p).eng = (s.eng.takeFrame s.front f (s.admission f p)).1 := by
  unfold State.admitFrame
  dsimp only
  split <;> rfl

theorem State.admitFrame_front (f : FeedId) (p : Placed) (s : State) : (s.admitFrame f p).front =
    s.front.updReceiver f fun r => r.answered (s.eng.takeFrame s.front f (s.admission f p)).2 := by
  unfold State.admitFrame State.admission
  rw [State.receiver_eq]
  dsimp only
  split
  · rename_i h
    rw [h]
    exact (Front.updReceiver_self rfl).symm
  · rename_i h
    rw [h]
    rfl
  · rename_i h
    rw [h]
    rfl

end Sys2Proof.Machine
end


section
/-! The feeds' invariant (R7, R10, R19, R21, R22, R24, R28): every operation that touches a receiver or a timer keeps it, and
every other operation leaves receivers and timers as they are. -/

namespace Sys2Proof.Machine

/-! ## One feed -/

theorem bump_le {n : Nat} (h : n ≤ 65535) : bump n ≤ 65535 := by
  unfold bump; split <;> omega

theorem Tally.zero_bounded : Tally.zero.bounded := by simp [Tally.bounded, Tally.zero]

/-- A change of the tally, the expectation and the changed set alone keeps a feed good. -/
theorem feedGood.withTally {r r' : Receiver} {t : FeedTimer} (h : feedGood r t) (ht : r'.tally.bounded)
    (hr : r' = { r with tally := r'.tally, expected := r'.expected, changed := r'.changed }) : feedGood r' t := by
  obtain ⟨hoff, hon, hlock, hcand, -, hmeta, hhist⟩ := h
  rw [hr]
  exact ⟨hoff, hon, hlock, hcand, ht, hmeta, hhist⟩

theorem feedGood.tally {r : Receiver} {t : FeedTimer} (h : feedGood r t) : r.tally.bounded := h.2.2.2.2.1

theorem feedGood.countEmpty {r : Receiver} {t : FeedTimer} (h : feedGood r t) : feedGood r.countEmpty t := by
  obtain ⟨h1, h2, h3, h4⟩ := h.tally
  exact h.withTally ⟨h1, h2, h3, bump_le h4⟩ rfl

theorem feedGood.answered {r : Receiver} {t : FeedTimer} (h : feedGood r t) (v : Verdict) :
    feedGood (r.answered v) t := by
  obtain ⟨hoff, hon, hlock, hcand, ⟨h1, h2, h3, h4⟩, hmeta, hhist⟩ := h
  have hoff' : r.enabled = false → r.off ∧ t.history = [] ∧ t.deadline = none := hoff
  cases v with
  | outside => exact ⟨hoff, hon, hlock, hcand, ⟨h1, h2, h3, h4⟩, hmeta, hhist⟩
  | overrun => exact ⟨hoff, hon, hlock, hcand, ⟨bump_le h1, h2, h3, h4⟩, hmeta, hhist⟩
  | slotted =>
    refine ⟨fun he => ?_, hon, hlock, hcand, Tally.zero_bounded, hmeta, hhist⟩
    obtain ⟨⟨hl, hc, hk, -, hrest⟩, ht⟩ := hoff' he
    exact ⟨⟨hl, hc, hk, rfl, hrest⟩, ht⟩

theorem Receiver.cutHeader_tally_bounded {r : Receiver} (h : r.tally.bounded) (counts : Bool) :
    (r.cutHeader counts).tally.bounded := by
  obtain ⟨h1, h2, h3, h4⟩ := h
  unfold Receiver.cutHeader
  dsimp only
  split
  · exact ⟨h1, h2, bump_le h3, h4⟩
  · exact ⟨h1, h2, h3, h4⟩

theorem feedGood.cutHeader {r : Receiver} {t : FeedTimer} (h : feedGood r t) (counts : Bool) :
    feedGood (r.cutHeader counts) t := by
  obtain ⟨hoff, hon, hlock, hcand, htally, hmeta, hhist⟩ := h
  refine ⟨fun he => ?_, hon, hlock, hcand, Receiver.cutHeader_tally_bounded htally _, hmeta, hhist⟩
  obtain ⟨⟨hl, hc, hk, hr, hw, -, hline⟩, ht⟩ := hoff he
  exact ⟨⟨hl, hc, hk, hr, hw, rfl, hline⟩, ht⟩

/-- The line, the header mark and the pending settings of an enabled feed are free. -/
theorem feedGood.ofEnabled {r r' : Receiver} {t : FeedTimer} (h : feedGood r t) (he : r.enabled = true)
    (hr : r' = { r with line := r'.line, inHeader := r'.inHeader, waiting := r'.waiting }) : feedGood r' t := by
  obtain ⟨-, hon, hlock, hcand, htally, hmeta, hhist⟩ := h
  rw [hr]
  exact ⟨fun hd => absurd (he.symm.trans hd) (by simp), hon, hlock, hcand, htally, hmeta, hhist⟩

theorem feedGood.dropWaiting {r : Receiver} {t : FeedTimer} (h : feedGood r t) :
    feedGood { r with waiting := none } t := by
  obtain ⟨hoff, hrest⟩ := h
  refine ⟨fun he => ?_, hrest⟩
  obtain ⟨⟨hl, hc, hk, hr, -, hh⟩, ht⟩ := hoff he
  exact ⟨⟨hl, hc, hk, hr, rfl, hh⟩, ht⟩

theorem feedGood.disabling {r : Receiver} {t : FeedTimer} (h : feedGood r t) (hw : r.waiting = none) :
    feedGood { r.disabling with link := .dark } .reset := by
  obtain ⟨-, -, -, -, htally, hmeta, -⟩ := h
  exact ⟨fun _ => ⟨⟨rfl, rfl, rfl, rfl, hw, rfl, rfl⟩, rfl, rfl⟩, nofun, nofun, nofun, htally, hmeta, Nat.zero_le _⟩

theorem feedGood.enabling {r : Receiver} {t : FeedTimer} (h : feedGood r t) (n : Settings) :
    feedGood { Receiver.enabling { r with active := some n } with link := r.enabledLink } .reset := by
  obtain ⟨-, hon, -⟩ := h
  have hlink : r.enabledLink ≠ .locked := by
    unfold Receiver.enabledLink; split <;> split <;> simp
  have hdark : r.enabledLink = .dark ↔ r.signal = false := by
    unfold Receiver.enabledLink
    cases he : r.enabled
    · cases r.signal <;> simp
    · simp [← (hon he).2]
  exact ⟨nofun, fun _ => ⟨rfl, hdark⟩, fun hl => absurd hl hlink, nofun, Tally.zero_bounded,
    ⟨Nat.zero_le _, List.Pairwise.nil, nofun⟩, Nat.zero_le _⟩

/-- A capture joins the history, which keeps at most nine (R28). -/
theorem pushCapture_length (c : Count) (l : List Count) : (pushCapture c l).length ≤ 9 := by
  simp only [pushCapture, List.length_drop, List.length_append, List.length_singleton]
  omega

theorem FeedTimer.capture_history (n : Settings) (c : Count) (t : FeedTimer) :
    (t.capture n c).history = pushCapture c t.history := by
  unfold FeedTimer.capture; dsimp only; split <;> rfl

theorem FeedTimer.capture_deadline (n : Settings) (c : Count) (t : FeedTimer) :
    (t.capture n c).deadline = some (n.lossWindow * n.rate.pnom) := by
  unfold FeedTimer.capture; dsimp only; split <;> rfl

/-- An enabled feed's timer keeps its bound whatever its deadline. -/
theorem feedGood.withTimer {r : Receiver} {t t' : FeedTimer} (h : feedGood r t) (he : r.enabled = true)
    (ht : t'.history.length ≤ 9) : feedGood r t' := by
  obtain ⟨-, hon, hlock, hcand, htally, hmeta, -⟩ := h
  exact ⟨fun hd => absurd (he.symm.trans hd) (by simp), hon, hlock, hcand, htally, hmeta, ht⟩

/-! ## The Field Metadata Record (R19) -/

theorem Receiver.applyItem_eq (r : Receiver) (i : Item) :
    r.applyItem i = { r with metadata := (r.applyItem i).metadata, changed := (r.applyItem i).changed } := by
  unfold Receiver.applyItem
  split
  · rfl
  · split
    · split
      · rfl
      · split <;> rfl
    · split <;> rfl

theorem mem_insertItem {i k : Item} {l : List Item} (hk : k ∈ insertItem i l) : k = i ∨ k ∈ l ∧ k.tag ≠ i.tag := by
  simp only [insertItem, List.mem_append, List.mem_cons, List.mem_filter, decide_eq_true_eq] at hk
  rcases hk with ⟨hm, hlt⟩ | rfl | ⟨hm, hlt⟩
  · exact .inr ⟨hm, BitVec.ne_of_lt hlt⟩
  · exact .inl rfl
  · exact .inr ⟨hm, (BitVec.ne_of_lt hlt).symm⟩

/-- An item that joins takes at most one place, and none when its tag is there. -/
theorem insertItem_length (i : Item) (l : List Item) :
    (insertItem i l).length ≤ (l.filter fun k => k.tag != i.tag).length + 1 := by
  have : ∀ l : List Item, (l.filter fun k => decide (k.tag < i.tag)).length +
      (l.filter fun k => decide (i.tag < k.tag)).length ≤ (l.filter fun k => k.tag != i.tag).length := by
    intro l
    simp only [← List.countP_eq_length_filter, BitVec.lt_def]
    induction l with
    | nil => simp
    | cons k l ih =>
      simp only [List.countP_cons, decide_eq_true_eq, bne_iff_ne, ne_eq, ← BitVec.toNat_inj]
      rcases Nat.lt_trichotomy k.tag.toNat i.tag.toNat with h | h | h
      · simp only [h, Nat.lt_asymm h, Nat.ne_of_lt h, if_true, if_false, not_false_eq_true]; omega
      · simp only [h, Nat.lt_irrefl, if_false, not_true_eq_false]; omega
      · simp only [h, Nat.lt_asymm h, Nat.ne_of_gt h, if_true, if_false, not_false_eq_true]; omega
  have := this l
  simp only [insertItem, List.length_append, List.length_cons]
  omega

theorem insertItem_pairwise {i : Item} {l : List Item} (h : (l.map (·.tag)).Pairwise (· < ·)) :
    ((insertItem i l).map (·.tag)).Pairwise (· < ·) := by
  rw [List.pairwise_map] at h ⊢
  rw [insertItem, List.pairwise_append, List.pairwise_cons]
  refine ⟨h.filter _, ⟨fun k hk => ?_, h.filter _⟩, fun a ha b hb => ?_⟩
  · simpa using (List.mem_filter.mp hk).2
  · have ha : a.tag < i.tag := by simpa using (List.mem_filter.mp ha).2
    rcases List.mem_cons.mp hb with rfl | hb
    · exact ha
    · exact BitVec.lt_trans ha (by simpa using (List.mem_filter.mp hb).2)

theorem metadataGood.filter {l : List Item} (h : metadataGood l) (p : Item → Bool) : metadataGood (l.filter p) := by
  obtain ⟨hlen, hsort, htag⟩ := h
  refine ⟨(List.length_filter_le _ _).trans hlen, ?_, fun i hi => htag i (List.mem_filter.mp hi).1⟩
  rw [List.pairwise_map] at hsort ⊢
  exact hsort.filter _

theorem metadataGood.insertItem {l : List Item} {i : Item} (h : metadataGood l) (hi : i.tag ≠ 0)
    (hroom : (l.filter fun k => k.tag != i.tag).length < 8) : metadataGood (insertItem i l) := by
  refine ⟨(insertItem_length i l).trans hroom, insertItem_pairwise h.2.1, fun k hk => ?_⟩
  rcases mem_insertItem hk with rfl | ⟨hk, -⟩
  · exact hi
  · exact h.2.2 k hk

/-- One item keeps the record within its bounds. -/
theorem Receiver.applyItem_metadataGood {r : Receiver} (h : metadataGood r.metadata) (i : Item) :
    metadataGood (r.applyItem i).metadata := by
  unfold Receiver.applyItem
  split
  · exact h
  · rename_i hi
    split
    · rename_i old hold
      split
      · exact h.filter _
      · split
        · exact h
        · refine h.insertItem hi (lt_of_lt_of_le ?_ h.1)
          rw [List.length_filter_lt_length_iff_exists]
          have := List.find?_some hold
          exact ⟨old, List.mem_of_find?_eq_some hold, by simpa using this⟩
    · split
      · exact h
      · rename_i hroom
        refine h.insertItem hi (lt_of_le_of_lt (List.length_filter_le _ _) ?_)
        omega

theorem feedGood.applyItem {r : Receiver} {t : FeedTimer} (h : feedGood r t) (i : Item) : feedGood (r.applyItem i) t := by
  have hm := Receiver.applyItem_metadataGood h.2.2.2.2.2.1 i
  obtain ⟨hoff, hon, hlock, hcand, htally, -, hhist⟩ := h
  rw [Receiver.applyItem_eq]
  exact ⟨hoff, hon, hlock, hcand, htally, hm, hhist⟩

theorem feedGood.applyItems {r : Receiver} {t : FeedTimer} (h : feedGood r t) (l : List Item) :
    feedGood (l.foldl Receiver.applyItem r) t := by
  induction l generalizing r with
  | nil => exact h
  | cons i l ih => exact ih (h.applyItem i)

end Sys2Proof.Machine
end


section
/-! Every step keeps the feeds' invariant: the operations outside the Feed Receiver leave receivers and timers alone, and those
of the Feed Receiver keep each feed good. -/

namespace Sys2Proof.Machine

/-! ## Operations that leave receivers and timers alone -/

/-- Receivers and timers are the same in `s'` as in `s`. -/
structure State.SameFeeds (s s' : State) : Prop where
  receivers : s'.front.receivers = s.front.receivers
  timers : s'.front.timers = s.front.timers

theorem State.SameFeeds.refl (s : State) : s.SameFeeds s := ⟨rfl, rfl⟩

theorem State.SameFeeds.trans {s t u : State} (h : s.SameFeeds t) (h' : t.SameFeeds u) : s.SameFeeds u :=
  ⟨h'.receivers.trans h.receivers, h'.timers.trans h.timers⟩

theorem State.SameFeeds.good {s s' : State} (h : s.SameFeeds s') (hs : s.front.feedsGood) : s'.front.feedsGood := by
  intro f
  rw [h.receivers, h.timers]
  exact hs f

theorem State.act_sameFeeds (s : State) (g : Front → Engine → Engine) : s.SameFeeds (s.act g) := ⟨rfl, rfl⟩

theorem State.onAttention_sameFeeds (s : State) (g : Attention → Attention) : s.SameFeeds (s.onAttention g) := ⟨rfl, rfl⟩

theorem State.onFlags_sameFeeds (s : State) (g : StatusFlags → StatusFlags) : s.SameFeeds (s.onFlags g) := ⟨rfl, rfl⟩

theorem State.globalAnswer_sameFeeds (q : GlobalRequest) (r : Result) (s : State) : s.SameFeeds (s.globalAnswer q r) :=
  ⟨rfl, rfl⟩

theorem State.conclude_sameFeeds (f : FeedId) (q : FeedRequest) (r : Result) (n : Nat) (s : State) :
    s.SameFeeds (s.conclude f q r n) := ⟨rfl, rfl⟩

theorem State.foldl_sameFeeds {α : Type} {g : State → α → State} (h : ∀ (s : State) (a : α), s.SameFeeds (g s a))
    (l : List α) (s : State) : s.SameFeeds (l.foldl g s) := by
  induction l generalizing s with
  | nil => exact .refl s
  | cons a l ih => exact (h s a).trans (ih _)

theorem State.abandonLoad_sameFeeds (s : State) : s.SameFeeds s.abandonLoad := by
  unfold State.abandonLoad; split <;> exact ⟨rfl, rfl⟩

theorem State.refuseWaiting_sameFeeds (s : State) (f : FeedId) : s.SameFeeds (s.refuseWaiting f) := by
  unfold State.refuseWaiting; split <;> exact ⟨rfl, rfl⟩

theorem State.takeStandby_sameFeeds (s : State) : s.SameFeeds s.takeStandby := by
  unfold State.takeStandby State.enterStandby
  exact ((((s.abandonLoad_sameFeeds.trans (State.foldl_sameFeeds State.refuseWaiting_sameFeeds _ _)).trans
    (State.act_sameFeeds _ _)).trans (State.globalAnswer_sameFeeds ..)).trans (State.onAttention_sameFeeds _ _)).trans
    (State.act_sameFeeds _ _)

theorem State.serveGlobal_sameFeeds (q : GlobalRequest) (s : State) : s.SameFeeds (s.serveGlobal q) := by
  cases q with
  | start => exact ⟨rfl, rfl⟩
  | timeLoad => exact ⟨rfl, rfl⟩
  | standby =>
    simp only [State.serveGlobal]
    split
    · exact ⟨rfl, rfl⟩
    · exact (State.onAttention_sameFeeds s _).trans (State.takeStandby_sameFeeds _)

/-- A served feed request leaves receivers and timers alone, unless it is FEED_RESET. -/
theorem State.serveFeed_sameFeeds {q : FeedRequest} (hq : q ≠ .feedReset) (f : FeedId) (s : State) :
    s.SameFeeds (s.serveFeed f q) := by
  cases q with
  | feedReset => exact absurd rfl hq
  | load => exact ⟨rfl, rfl⟩
  | loadCommon => exact ⟨rfl, rfl⟩
  | arm => simp only [State.serveFeed]; split <;> exact ⟨rfl, rfl⟩
  | stop => simp only [State.serveFeed, State.serveStop]; split <;> exact ⟨rfl, rfl⟩
  | halt => simp only [State.serveFeed, State.serveHalt]; split <;> exact ⟨rfl, rfl⟩
  | abort => simp only [State.serveFeed, State.serveAbort]; split <;> exact ⟨rfl, rfl⟩
  | refill =>
    simp only [State.serveFeed, State.serveRefill]
    split
    · split <;> exact ⟨rfl, rfl⟩
    · exact ⟨rfl, rfl⟩

theorem State.takeFeed_sameFeeds (q : FeedRequest) (s : State) (f : FeedId) : s.SameFeeds (s.takeFeed q f) := by
  unfold State.takeFeed; split <;> exact ⟨rfl, rfl⟩

theorem State.attentionFeed_sameFeeds (q : FeedRequest) (mask : BitVec 16) (s : State) :
    s.SameFeeds (s.attentionFeed q mask) := by
  unfold State.attentionFeed
  split
  · exact State.foldl_sameFeeds (State.takeFeed_sameFeeds q) _ s
  · exact ⟨rfl, rfl⟩

theorem State.attentionGlobal_sameFeeds (q : GlobalRequest) (s : State) : s.SameFeeds (s.attentionGlobal q) := by
  unfold State.attentionGlobal
  split
  · unfold State.takeGlobal; dsimp only; split <;> exact ⟨rfl, rfl⟩
  · exact ⟨rfl, rfl⟩
  · split
    · unfold State.startFromStandby; split <;> exact ⟨rfl, rfl⟩
    · exact ⟨rfl, rfl⟩

theorem State.attentionWrite_sameFeeds (word : BitVec 32) (s : State) : s.SameFeeds (s.attentionWrite word) := by
  unfold State.attentionWrite
  split
  · exact State.attentionFeed_sameFeeds ..
  · exact State.attentionGlobal_sameFeeds ..
  · exact ⟨rfl, rfl⟩

theorem State.readFails_sameFeeds (r : ReadRequest) (s : State) : s.SameFeeds (s.readFails r) := by
  cases r <;> exact ⟨rfl, rfl⟩

theorem State.failOutstanding_sameFeeds (o : Outstanding) (s : State) : s.SameFeeds (s.failOutstanding o) := by
  have h : s.SameFeeds (s.endRead.onFlags fun g => { g with linkFault := true }) := ⟨rfl, rfl⟩
  unfold State.failOutstanding
  dsimp only
  split
  · exact h.trans (State.readFails_sameFeeds _ _)
  · exact h

/-! ## The Feed Receiver's operations keep the feeds good -/

theorem Front.updReceiver_feedsGood {x : Front} (h : x.feedsGood) (f : FeedId) {g : Receiver → Receiver}
    (hg : feedGood (g x.receivers[f]) x.timers[f]) : (x.updReceiver f g).feedsGood := by
  intro k
  rw [Front.updReceiver_receivers, Front.updReceiver_timers, upd_get]
  split
  · rename_i hk; exact hk ▸ hg
  · exact h k

/-- A change of one feed's receiver and timer together. -/
theorem Front.updFeed_feedsGood {x : Front} (h : x.feedsGood) (f : FeedId) {g : Receiver → Receiver}
    {u : FeedTimer → FeedTimer} (hg : feedGood (g x.receivers[f]) (u x.timers[f])) :
    ((x.updReceiver f g).updTimer f u).feedsGood := by
  intro k
  rw [Front.updTimer_receivers, Front.updTimer_timers, Front.updReceiver_receivers, Front.updReceiver_timers, upd_get,
    upd_get]
  split
  · rename_i hk; exact hk ▸ hg
  · exact h k

theorem Front.updTimer_feedsGood {x : Front} (h : x.feedsGood) (f : FeedId) {u : FeedTimer → FeedTimer}
    (hu : feedGood x.receivers[f] (u x.timers[f])) : (x.updTimer f u).feedsGood := by
  rw [← Front.updReceiver_self (x := x) (f := f) (g := id) rfl]
  exact Front.updFeed_feedsGood h f hu

theorem Front.applyBlock_feedsGood {x : Front} (h : x.feedsGood) {f : FeedId} (hw : x.receivers[f].waiting = none)
    (b : Block) : (x.applyBlock f b).feedsGood := by
  cases b with
  | disabling => exact Front.updFeed_feedsGood h f ((h f).disabling hw)
  | enabling n =>
    show (x.applyEnabling f n).feedsGood
    unfold Front.applyEnabling
    split
    · have : ∀ x' : Front, ((x'.updReceiver f fun r => { r with active := some n }).updReceiver f fun r =>
          { r.enabling with link := x.receivers[f].enabledLink }) = x'.updReceiver f fun r =>
            { Receiver.enabling { r with active := some n } with link := x.receivers[f].enabledLink } :=
        fun x' => Front.updReceiver_updReceiver ..
      have hg := Front.updFeed_feedsGood h f (g := fun r =>
        { Receiver.enabling { r with active := some n } with link := x.receivers[f].enabledLink }) (u := fun _ => .reset)
        ((h f).enabling n)
      rw [← this] at hg
      exact hg
    · rename_i hr
      have hr : x.receivers[f].enabled = true := by
        simp only [Receiver.restarts, Bool.or_eq_true, Bool.not_eq_true', not_or] at hr
        exact Bool.of_not_eq_false hr.1
      have : (x.updReceiver f fun r => { r with active := some n }).feedsGood := by
        refine Front.updReceiver_feedsGood h f ?_
        obtain ⟨-, hon, hlock, hcand, hrest⟩ := h f
        exact ⟨fun hd => absurd (hr.symm.trans hd) (by simp), fun he => ⟨rfl, (hon he).2⟩, hlock, hcand, hrest⟩
      exact this

theorem State.applyBlock_feedsGood {s : State} (h : s.front.feedsGood) (f : FeedId) (b : Block) :
    ((s.onReceiver f fun r => { r with waiting := none }).applyBlock f b).front.feedsGood := by
  rw [State.applyBlock_front]
  refine Front.applyBlock_feedsGood (Front.updReceiver_feedsGood h f (h f).dropWaiting) ?_ b
  rw [Front.updReceiver_receivers, upd_same]

theorem State.applyPending_feedsGood {s : State} (h : s.front.feedsGood) (f : FeedId) :
    (s.applyPending f).front.feedsGood := by
  cases hw : s.front.receivers[f].waiting with
  | none => rwa [State.applyPending_of_none hw]
  | some b => rw [State.applyPending_of_some hw]; exact State.applyBlock_feedsGood h f b

theorem State.handOver_feedsGood {s : State} (h : s.front.feedsGood) (f : FeedId) (b : Block) :
    (s.handOver f b).front.feedsGood := by
  by_cases hl : s.front.receivers[f].enabled = true ∧ s.front.receivers[f].link = .locked
  · rw [State.handOver_of_locked b hl]
    exact Front.updReceiver_feedsGood h f ((h f).ofEnabled hl.1 rfl)
  · rw [State.handOver_of_not_locked b hl]
    exact State.applyBlock_feedsGood h f b

theorem State.closeFrame_feedsGood {s : State} (h : s.front.feedsGood) (f : FeedId) :
    (s.closeFrame f).front.feedsGood := by
  have hg : (s.front.updReceiver f fun r => if s.eng.openEmpty f then r.countEmpty else r).feedsGood := by
    refine Front.updReceiver_feedsGood h f ?_
    split
    · exact (h f).countEmpty
    · exact h f
  rw [State.closeFrame_front]
  exact hg

theorem State.cutHeader_feedsGood {s : State} (h : s.front.feedsGood) (f : FeedId) :
    (s.cutHeader f).front.feedsGood := by
  rw [State.cutHeader_eq]
  exact Front.updReceiver_feedsGood h f ((h f).cutHeader _)

/-- Once the link state has changed, leaving LOCKED keeps the feeds good. -/
theorem State.leaveLocked_feedsGood {s : State} {f : FeedId} {l : Link} (h : (s.setLink f l).front.feedsGood)
    (c : LossCause) : (s.leaveLocked f l c).front.feedsGood := by
  refine State.applyPending_feedsGood ?_ f
  show (State.linkLoss f c _).front.feedsGood
  rw [State.linkLoss_front]
  exact State.closeFrame_feedsGood h f

/-- The deadline of a feed that is good may go at any time. -/
theorem feedGood.dropDeadline {r : Receiver} {t : FeedTimer} (h : feedGood r t) :
    feedGood r { t with deadline := none } := by
  obtain ⟨hoff, hrest⟩ := h
  exact ⟨fun he => ⟨(hoff he).1, (hoff he).2.1, rfl⟩, hrest⟩

theorem feedGood.dropCandidate {r : Receiver} {t : FeedTimer} (h : feedGood r t) :
    feedGood { r with candidate := false } t := by
  obtain ⟨hoff, hon, hlock, -, hrest⟩ := h
  refine ⟨fun he => ?_, hon, hlock, nofun, hrest⟩
  obtain ⟨⟨hl, -, hh⟩, ht⟩ := hoff he
  exact ⟨⟨hl, rfl, hh⟩, ht⟩

/-- A good feed that is not DARK is enabled and has its signal. -/
theorem feedGood.of_link {r : Receiver} {t : FeedTimer} (h : feedGood r t) (hl : r.link ≠ .dark) :
    r.enabled = true ∧ r.signal = true := by
  obtain ⟨hoff, hon, -⟩ := h
  have he : r.enabled = true := by
    cases he : r.enabled with
    | true => rfl
    | false => exact absurd (hoff he).1.1 hl
  exact ⟨he, by simpa [hl] using (hon he).2⟩

/-- A signal loss that takes an enabled feed to DARK keeps it good. -/
theorem feedGood.loseSignal {r : Receiver} {t : FeedTimer} (h : feedGood r t) (he : r.enabled = true) (counts : Bool) :
    feedGood { r.loseSignal counts with link := .dark } t := by
  obtain ⟨-, hon, -, -, htally, hmeta, hhist⟩ := h
  exact ⟨fun hd => absurd (he.symm.trans hd) (by simp), fun he => ⟨(hon he).1, by simp [Receiver.loseSignal]⟩, nofun,
    nofun, Receiver.cutHeader_tally_bounded htally _, hmeta, hhist⟩

/-- An absent signal is the one observed already, unless the feed took symbols. -/
theorem feedGood.signalAbsent {r : Receiver} {t : FeedTimer} (h : feedGood r t)
    (hs : ¬(r.enabled = true ∧ r.signal = true)) : feedGood { r with signal := false } t := by
  obtain ⟨hoff, hon, hrest⟩ := h
  refine ⟨hoff, fun he => ⟨(hon he).1, ?_⟩, hrest⟩
  have : r.signal = false := by
    cases hr : r.signal with
    | false => rfl
    | true => exact absurd ⟨he, hr⟩ hs
  simpa [this] using (hon he).2

/-- A returned signal is the one observed already, unless the feed is enabled and DARK. -/
theorem feedGood.signalPresent {r : Receiver} {t : FeedTimer} (h : feedGood r t)
    (hs : ¬(r.enabled = true ∧ r.link = .dark)) : feedGood { r with signal := true } t := by
  obtain ⟨hoff, hon, hrest⟩ := h
  refine ⟨hoff, fun he => ⟨(hon he).1, ?_⟩, hrest⟩
  have : r.link ≠ .dark := fun hl => hs ⟨he, hl⟩
  simpa using this

theorem feedGood.seek {r : Receiver} {t : FeedTimer} (h : feedGood r t) (he : r.enabled = true) :
    feedGood { r with signal := true, candidate := false, link := .seeking } t := by
  obtain ⟨-, hon, -, -, hrest⟩ := h
  exact ⟨fun hd => absurd (he.symm.trans hd) (by simp), fun he => ⟨(hon he).1, by simp⟩, nofun, nofun, hrest⟩

theorem State.expireDeadline_feedsGood {s : State} (h : s.front.feedsGood) (f : FeedId) :
    (s.expireDeadline f).front.feedsGood := by
  have hd := Front.updTimer_feedsGood h f (u := fun t => { t with deadline := none }) (h f).dropDeadline
  unfold State.expireDeadline
  dsimp only
  rw [State.receiver_eq]
  split
  · exact hd
  · exact Front.updReceiver_feedsGood hd f (hd f).dropCandidate
  · rename_i hl
    refine State.leaveLocked_feedsGood ?_ .deadline
    rw [State.setLink_front, State.onReceiver_front, Front.updReceiver_updReceiver]
    refine Front.updReceiver_feedsGood hd f ?_
    have hl : s.front.receivers[f].link = .locked := hl
    obtain ⟨he, hs⟩ := (h f).of_link (by rw [hl]; simp)
    obtain ⟨-, hon, -, -, hrest⟩ := hd f
    exact ⟨fun hd => absurd (he.symm.trans hd) (by simp), fun he => ⟨(hon he).1, by simpa using hs⟩, nofun, nofun, hrest⟩

/-! ## Accepted headers -/

theorem feedGood.lock {r : Receiver} {t : FeedTimer} (h : feedGood r t) (hl : r.link = .seeking) (c : Option Count) :
    feedGood { r with candidate := false, hasLocked := true, link := .locked, relock := c } t := by
  obtain ⟨he, hs⟩ := h.of_link (by rw [hl]; simp)
  obtain ⟨-, hon, -, -, hrest⟩ := h
  exact ⟨fun hd => absurd (he.symm.trans hd) (by simp), fun he => ⟨(hon he).1, by simpa using hs⟩, fun _ => rfl, nofun, hrest⟩

theorem feedGood.setCandidate {r : Receiver} {t : FeedTimer} (h : feedGood r t) (hl : r.link = .seeking) :
    feedGood { r with candidate := true } t := by
  obtain ⟨he, -⟩ := h.of_link (by rw [hl]; simp)
  obtain ⟨-, hon, hlock, -, hrest⟩ := h
  exact ⟨fun hd => absurd (he.symm.trans hd) (by simp), hon, hlock, fun _ => hl, hrest⟩

/-- What a FORMAT_MISMATCH header makes of its receiver; `counts` says that a take records (R4, R10). -/
def Receiver.mismatch (counts : Bool) (r : Receiver) : Receiver :=
  { r with
    tally := if counts then { r.tally with mismatch := bump r.tally.mismatch } else r.tally
    candidate := if r.link = .seeking then false else r.candidate }

theorem State.mismatch_eq (f : FeedId) (s : State) :
    s.mismatch f = s.onReceiver f (Receiver.mismatch (s.recording f)) := rfl

theorem feedGood.mismatch {r : Receiver} {t : FeedTimer} (h : feedGood r t) (counts : Bool) :
    feedGood (r.mismatch counts) t := by
  obtain ⟨hoff, hon, hlock, hcand, ⟨h1, h2, h3, h4⟩, hrest⟩ := h
  have htally : (r.mismatch counts).tally.bounded := by
    cases counts
    · exact ⟨h1, h2, h3, h4⟩
    · exact ⟨h1, bump_le h2, h3, h4⟩
  unfold Receiver.mismatch at *
  refine ⟨fun he => ?_, hon, hlock, fun hc => ?_, htally, hrest⟩
  · obtain ⟨⟨hl, hc, hh⟩, ht⟩ := hoff he
    exact ⟨⟨hl, by simp [hc], hh⟩, ht⟩
  · dsimp only at hc
    split at hc
    · cases hc
    · exact hcand hc

theorem State.admitFrame_feedsGood {s : State} (h : s.front.feedsGood) (f : FeedId) (p : Placed) :
    (s.admitFrame f p).front.feedsGood := by
  rw [State.admitFrame_front]
  exact Front.updReceiver_feedsGood h f ((h f).answered _)

theorem State.judgeHeader_feedsGood {s : State} (h : s.front.feedsGood) (f : FeedId) (a : HeaderFields) (p : Placed) :
    (s.judgeHeader f a p).front.feedsGood := by
  unfold State.judgeHeader
  dsimp only
  rw [State.receiver_eq]
  split
  · split
    · exact h
    · exact State.admitFrame_feedsGood h f p
    · rename_i hl
      split
      · refine State.admitFrame_feedsGood ?_ f p
        rw [State.lock_front]
        exact Front.updReceiver_feedsGood h f ((h f).lock hl _)
      · exact Front.updReceiver_feedsGood h f ((h f).setCandidate hl)
  · rw [State.mismatch_eq]
    exact Front.updReceiver_feedsGood h f ((h f).mismatch _)

theorem State.acceptHeader_feedsGood {s : State} (h : s.front.feedsGood) {f : FeedId}
    (he : s.front.receivers[f].enabled = true) (a : HeaderFields) : (s.acceptHeader f a).front.feedsGood := by
  have hp : ((s.onReceiver f fun r => { r with inHeader := false }).applyPending f).front.feedsGood :=
    State.applyPending_feedsGood (Front.updReceiver_feedsGood h f ((h f).ofEnabled he rfl)) f
  unfold State.acceptHeader
  dsimp only
  rw [State.receiver_eq]
  split
  · rename_i hen
    refine State.judgeHeader_feedsGood ?_ f a _
    have hc : (((s.onReceiver f fun r => { r with inHeader := false }).applyPending f).capture f).front.feedsGood := by
      rw [State.capture_front]
      refine Front.updTimer_feedsGood hp f ((hp f).withTimer hen ?_)
      rw [FeedTimer.capture_history]
      exact pushCapture_length ..
    exact Front.updReceiver_feedsGood hc f ((hc f).withTally (hc f).tally rfl)
  · exact hp

/-! ## Settling and the other commands -/

/-- What FEED_RESET makes of a receiver (R24, R164). -/
theorem feedGood.reset (b : Bool) : feedGood { Receiver.reset with signal := b } .reset :=
  ⟨fun _ => ⟨⟨rfl, rfl, rfl, rfl, rfl, rfl, rfl⟩, rfl, rfl⟩, nofun, nofun, nofun, Tally.zero_bounded,
    ⟨Nat.zero_le _, List.Pairwise.nil, nofun⟩, Nat.zero_le _⟩

theorem State.serveFeedReset_feedsGood {s : State} (h : s.front.feedsGood) (f : FeedId) :
    (s.serveFeedReset f).front.feedsGood := by
  have hg : ((s.front.updReceiver f fun r => { Receiver.reset with signal := r.signal }).updTimer f
      fun _ => .reset).feedsGood := Front.updFeed_feedsGood h f (feedGood.reset _)
  exact hg

theorem State.serveStep_feedsGood {s s' : State} (h : s.front.feedsGood) (hs : s.serveStep = some s') :
    s'.front.feedsGood := by
  simp only [State.serveStep] at hs
  split at hs
  · cases hs
  · split at hs
    · cases hs; exact (State.serveGlobal_sameFeeds _ s).good h
    · obtain ⟨⟨f, q⟩, -, rfl⟩ := Option.map_eq_some_iff.mp hs
      have h' := (State.onAttention_sameFeeds s (Attention.takeInHand f q)).good h
      by_cases hq : q = .feedReset
      · subst hq; exact State.serveFeedReset_feedsGood h' f
      · exact (State.serveFeed_sameFeeds hq f _).good h'

/-- Settling keeps the feeds good. -/
theorem State.settle_feedsGood {s : State} (h : s.front.feedsGood) : s.settle.front.feedsGood := by
  refine State.settle_keeps_front (P := fun t => t.front.feedsGood) (fun _ _ => State.serveStep_feedsGood) ?_ ?_ h
  · intro t t' ht hr
    obtain ⟨f, -, rfl⟩ := Option.map_eq_some_iff.mp hr
    exact (State.conclude_sameFeeds f .refill .done 0 t).good ht
  · intro t e ht; exact ht

theorem State.timeValueRead_sameFeeds (v : Count) (s : State) : s.SameFeeds (s.timeValueRead v) := by
  unfold State.timeValueRead; dsimp only; split <;> exact ⟨rfl, rfl⟩

theorem State.settingsRead_feedsGood {s : State} (h : s.front.feedsGood) (f : FeedId) (q : FeedRequest)
    (bytes : List Byte) : (s.settingsRead f q bytes).front.feedsGood := by
  unfold State.settingsRead
  dsimp only
  split
  · exact h
  · split
    · exact h
    · exact (State.conclude_sameFeeds ..).good (State.handOver_feedsGood (s := s.endService) h f _)

theorem State.readArrives_feedsGood {s : State} (h : s.front.feedsGood) (r : ReadRequest) (bytes : List Byte) :
    (s.readArrives r bytes).front.feedsGood := by
  cases r with
  | pageHeader => simp only [State.readArrives, State.pageHeaderRead]; split <;> exact h
  | timeValue => exact (State.timeValueRead_sameFeeds ..).good h
  | settings f => exact State.settingsRead_feedsGood h f .load _
  | common f => exact State.settingsRead_feedsGood h f .loadCommon _
  | stagedAddress f =>
    simp only [State.readArrives, State.armAddressRead]
    split
    · exact h
    · split <;> exact h
  | sheetHeader f a =>
    simp only [State.readArrives, State.armHeaderRead]
    split
    · exact h
    · split <;> exact h
  | armEntry f a n =>
    simp only [State.readArrives, State.armEntryRead]
    split
    · split
      · exact h
      · split <;> exact h
    · exact h
  | posted => exact h
  | entry => exact h

theorem State.completeOutstanding_feedsGood {s : State} (h : s.front.feedsGood) (o : Outstanding) (r : Reply) :
    (s.completeOutstanding o r).front.feedsGood := by
  cases r with
  | error => exact (State.failOutstanding_sameFeeds o s).good h
  | data bytes =>
    have hf : ∀ b : Bool, (if b = true then s.useFree else s).front.feedsGood := by
      intro b; cases b <;> exact h
    simp only [State.completeOutstanding, State.endOutstanding]
    have := hf (decide (bytes.length < (o.request.span s.front.pageBase).2))
    simp only [decide_eq_true_eq] at this
    split
    · exact State.readArrives_feedsGood (s := State.endRead _) this _ _
    · exact this

theorem State.takeDeadline_feedsGood {s : State} (h : s.front.feedsGood) (f : FeedId) :
    (s.takeDeadline f).front.feedsGood := by
  unfold State.takeDeadline
  split
  · exact State.expireDeadline_feedsGood h f
  · exact h

theorem State.takeLoadWait_sameFeeds (s : State) : s.SameFeeds s.takeLoadWait := by
  unfold State.takeLoadWait; split <;> exact ⟨rfl, rfl⟩

theorem State.takeReadTimeout_sameFeeds (s : State) : s.SameFeeds s.takeReadTimeout := by
  unfold State.takeReadTimeout
  split
  · split
    · exact State.failOutstanding_sameFeeds _ s
    · exact .refl s
  · exact .refl s

/-- The histories may be emptied, and the deadlines may count down. -/
theorem Front.mapTimers_feedsGood {x x' : Front} (h : x.feedsGood) (g : FeedTimer → FeedTimer)
    (hr : x'.receivers = x.receivers) (ht : x'.timers = x.timers.map g)
    (hg : ∀ r t, feedGood r t → feedGood r (g t)) : x'.feedsGood := by
  intro f
  have := hg _ _ (h f)
  simpa [hr, ht] using this

theorem State.advance_feedsGood {s : State} (h : s.front.feedsGood) : s.advance.front.feedsGood := by
  refine Front.mapTimers_feedsGood h (fun t => { t with deadline := t.deadline.map (· - 1) }) rfl rfl fun r t hg => ?_
  obtain ⟨hoff, hrest⟩ := hg
  exact ⟨fun he => ⟨(hoff he).1, (hoff he).2.1, by simp [(hoff he).2.2]⟩, hrest⟩

theorem State.takeDeadlines_feedsGood (l : List FeedId) {s : State} (h : s.front.feedsGood) :
    (l.foldl State.takeDeadline s).front.feedsGood := by
  induction l generalizing s with
  | nil => exact h
  | cons f l ih => exact ih (State.takeDeadline_feedsGood h f)

theorem State.tick_feedsGood {s : State} (h : s.front.feedsGood) : s.tick.front.feedsGood := by
  unfold State.tick State.takeDue
  exact State.advance_feedsGood (State.settle_feedsGood ((State.takeReadTimeout_sameFeeds _).good
    ((State.takeLoadWait_sameFeeds _).good (State.takeDeadlines_feedsGood _ h))))

theorem State.applyLoad_feedsGood {s : State} (h : s.front.feedsGood) (l : TimeLoad) : (s.applyLoad l).front.feedsGood := by
  refine Front.mapTimers_feedsGood h (fun t => { t with history := [] }) rfl rfl fun r t hg => ?_
  obtain ⟨hoff, hon, hlock, hcand, htally, hmeta, -⟩ := hg
  exact ⟨fun he => ⟨(hoff he).1, rfl, (hoff he).2.2⟩, hon, hlock, hcand, htally, hmeta, Nat.zero_le _⟩

theorem State.frontAtReset_feedsGood (s : State) (c : Count) (g : FeedId → Bool) : (s.frontAtReset c g).feedsGood := by
  intro f
  have : feedGood { Receiver.reset with signal := g f } FeedTimer.reset := feedGood.reset _
  simpa [State.frontAtReset, Front.reset] using this

/-- A symbol that keeps the feeds good when it is taken keeps them good. -/
theorem State.symbol_feedsGood {s : State} (h : s.front.feedsGood) {f : FeedId} {taken : State → State}
    (ht : ∀ u : State, u.front.feedsGood → u.front.receivers[f].enabled = true → (taken u).front.feedsGood) :
    (s.symbol f taken).front.feedsGood := by
  unfold State.symbol
  split
  · rename_i hl
    refine ht _ (State.cutHeader_feedsGood h f) ?_
    rw [State.cutHeader_eq, State.onReceiver_front, Front.updReceiver_receivers, upd_same]
    simp only [State.receiver_eq, Receiver.listens, Bool.and_eq_true] at hl
    unfold Receiver.cutHeader
    split <;> exact hl.1
  · exact h

theorem State.endLine_feedsGood {s : State} (h : s.front.feedsGood) {f : FeedId}
    (he : s.front.receivers[f].enabled = true) : (s.endLine f).front.feedsGood := by
  have hl : (s.onReceiver f fun r => { r with line := .empty }).front.feedsGood :=
    Front.updReceiver_feedsGood h f ((h f).ofEnabled he rfl)
  have hstore : ∀ (u : State) (o : OpenFrame) (y : Nat) (ps : List PixelPair), u.front.feedsGood →
      (u.storeLine f o y ps).front.feedsGood := fun u o y ps hu => hu
  have hcomplete : ∀ u : State, u.front.feedsGood → (u.closeComplete f).front.feedsGood := by
    intro u hu
    unfold State.closeComplete
    split
    · exact hu
    · split
      · exact State.closeFrame_feedsGood hu f
      · exact hu
  unfold State.endLine
  dsimp only
  split
  · unfold State.endMarked
    split
    · exact hcomplete _ (hstore _ _ _ _ hl)
    · exact hl
  · unfold State.endCounted
    split
    · exact hl
    · dsimp only
      split
      · exact hl
      · have hline : ∀ (u : State) (p : Prop) [Decidable p], u.front.feedsGood →
            (if p then u.closeFrame f else u).front.feedsGood := by
          intro u p _ hu
          split
          · exact State.closeFrame_feedsGood hu f
          · exact hu
        split
        · exact hline _ _ hl
        · exact hline _ _ (hstore _ _ _ _ hl)

/-! ## Every command -/

theorem execSignalLoss_feedsGood {f : FeedId} {s t : State} (h : s.front.feedsGood)
    (ht : exec (.signalLoss f) s = .next t) : t.front.feedsGood := by
  by_cases hl : s.front.receivers[f].enabled = true ∧ s.front.receivers[f].signal = true
  · have hdark : ((s.onReceiver f (Receiver.loseSignal (s.recording f))).setLink f .dark).front.feedsGood := by
      rw [State.setLink_front, State.onReceiver_front, Front.updReceiver_updReceiver]
      exact Front.updReceiver_feedsGood h f ((h f).loseSignal hl.1 _)
    rw [execSignalLoss_of_listens hl.1 hl.2] at ht
    cases ht
    refine State.settle_feedsGood ?_
    split
    · exact State.leaveLocked_feedsGood hdark .dark
    · exact hdark
  · rw [execSignalLoss_of_not_listens hl] at ht
    cases ht
    exact State.settle_feedsGood (Front.updReceiver_feedsGood h f ((h f).signalAbsent hl))

theorem execSignalReturn_feedsGood {f : FeedId} {s t : State} (h : s.front.feedsGood)
    (ht : execSignalReturn f s = .next t) : t.front.feedsGood := by
  unfold execSignalReturn at ht
  cases ht
  split
  · rename_i he
    refine State.settle_feedsGood ?_
    rw [State.setLink_front, State.onReceiver_front, State.onReceiver_front, Front.updReceiver_updReceiver,
      Front.updReceiver_updReceiver]
    exact Front.updReceiver_feedsGood h f ((h f).seek he.1)
  · rename_i he
    exact State.settle_feedsGood (Front.updReceiver_feedsGood h f ((h f).signalPresent he))

theorem execFrameHeader_feedsGood {f : FeedId} {chars : List Byte} {s t : State} (h : s.front.feedsGood)
    (ht : execFrameHeader f chars s = .next t) : t.front.feedsGood := by
  unfold execFrameHeader at ht
  cases ht
  split
  · rename_i hc
    simp only [State.receiver_eq, Receiver.listens, Bool.and_eq_true] at hc
    obtain ⟨⟨⟨he, -⟩, hh⟩, -⟩ := hc
    refine State.settle_feedsGood ?_
    split
    · exact State.acceptHeader_feedsGood h he _
    · rw [State.breakHeader_eq hh]
      exact Front.updReceiver_feedsGood h f ((h f).cutHeader _)
  · exact State.settle_feedsGood h

/-- Every command keeps the feeds good. -/
theorem exec_feedsGood {c : Instr} {s t : State} (h : s.front.feedsGood) (ht : exec c s = .next t) :
    t.front.feedsGood := by
  have hset : ∀ {u : State}, u.front.feedsGood → Host.Outcome.next u.settle = (.next t : Host.Outcome State Fault Refusal) →
      t.front.feedsGood := by
    intro u hu hut; cases hut; exact State.settle_feedsGood hu
  have hfeed : ∀ (q : FeedRequest) (mask : BitVec 16), (s.attentionFeed q mask).front.feedsGood :=
    fun q mask => (State.attentionFeed_sameFeeds q mask s).good h
  have hglobal : ∀ q : GlobalRequest, (s.attentionGlobal q).front.feedsGood :=
    fun q => (State.attentionGlobal_sameFeeds q s).good h
  cases c with
  | signalLoss f => exact execSignalLoss_feedsGood h ht
  | signalReturn f => exact execSignalReturn_feedsGood h ht
  | frameHeaderStart f =>
    refine hset (State.symbol_feedsGood h fun u hu he => ?_) ht
    exact State.closeFrame_feedsGood (Front.updReceiver_feedsGood hu f ((hu f).ofEnabled he rfl)) f
  | frameHeader f chars => exact execFrameHeader_feedsGood h ht
  | lineMarker f chars =>
    refine hset (State.symbol_feedsGood h fun u hu he => ?_) ht
    refine Front.updReceiver_feedsGood hu f ((hu f).ofEnabled he ?_)
    unfold Receiver.takeMarker
    split
    · rfl
    · split <;> rfl
  | sampleData f chars =>
    refine hset (State.symbol_feedsGood h fun u hu he => ?_) ht
    unfold State.takeSample
    split
    · exact hu
    · refine Front.updReceiver_feedsGood hu f ((hu f).ofEnabled he ?_)
      unfold Receiver.takePair
      split
      · rfl
      · rfl
      · split <;> rfl
  | lineEnd f => exact hset (State.symbol_feedsGood h fun u hu he => State.endLine_feedsGood hu he) ht
  | metadataPacket f chars =>
    refine hset (State.symbol_feedsGood h fun u hu he => ?_) ht
    exact Front.updReceiver_feedsGood hu f ((hu f).applyItems _)
  | lossDeadlineExpiry f => exact hset (State.takeDeadline_feedsGood h f) ht
  | refPulseEdge =>
    have ht : execRefPulseEdge s = .next t := ht
    unfold execRefPulseEdge at ht
    split at ht
    · exact hset (State.applyLoad_feedsGood h _) ht
    · exact hset h ht
  | timeLoadWaitExpiry => exact hset ((State.takeLoadWait_sameFeeds s).good h) ht
  | readCompletion a =>
    have ht : execReadCompletion a s = .next t := ht
    unfold execReadCompletion at ht
    split at ht
    · exact hset h ht
    · split at ht
      · exact hset (State.completeOutstanding_feedsGood h _ _) ht
      · exact hset h ht
  | readTimeout =>
    have ht : execReadTimeout s = .next t := ht
    unfold execReadTimeout at ht
    split at ht
    · split at ht
      · exact hset ((State.failOutstanding_sameFeeds _ s).good h) ht
      · exact hset h ht
    · exact hset h ht
  | linkBurstComplete =>
    have ht : execLinkBurstComplete s = .next t := ht
    unfold execLinkBurstComplete at ht
    split at ht
    · exact hset (u := s.burstSent _) h ht
    · exact hset h ht
  | browseBandComplete => exact hset (State.act_sameFeeds s _ |>.good h) ht
  | load mask => exact hset (hfeed _ mask) ht
  | loadCommon mask => exact hset (hfeed _ mask) ht
  | arm mask => exact hset (hfeed _ mask) ht
  | stop mask => exact hset (hfeed _ mask) ht
  | halt mask => exact hset (hfeed _ mask) ht
  | abort mask => exact hset (hfeed _ mask) ht
  | refill mask => exact hset (hfeed _ mask) ht
  | feedReset mask => exact hset (hfeed _ mask) ht
  | start mask => exact hset (hglobal _) ht
  | standby mask => exact hset (hglobal _) ht
  | timeLoad mask => exact hset (hglobal _) ht
  | attentionIgnored word => exact hset ((State.attentionWrite_sameFeeds word s).good h) ht
  | noticeWrite word => exact hset (State.act_sameFeeds s _ |>.good h) ht
  | noticeMaskWrite word => exact hset (u := s.setMask word) h ht
  | partStatusWrite word => exact hset (State.onFlags_sameFeeds s _ |>.good h) ht
  | pageBaseWrite high word =>
    have ht : execPageBaseWrite high word s = .next t := ht
    unfold execPageBaseWrite at ht
    split at ht
    · exact hset (u := s.onFront (Front.setPage high word)) h ht
    · exact hset h ht
  | refCountLowRead => exact hset (u := s.onFront Front.readLow) h ht
  | ignoredRegisterWrite offset word => exact hset h ht
  | powerOnReset => cases ht; exact State.frontAtReset_feedsGood _ _ _
  | hostLinkReset => cases ht; exact State.frontAtReset_feedsGood _ _ _

theorem step_of_nil {s : State} (h : s.pending = []) : step s = .next s.tick := by
  unfold step; rw [h]

theorem step_of_cons {s : State} {c : Instr} {rest : List Instr} (h : s.pending = c :: rest) :
    step s = exec c { s with pending := rest } := by
  unfold step; rw [h]

/-- Settles O59: the idle tick and every command keep each feed good. -/
theorem feedsStayGood : Obligations.FeedsStayGood := by
  intro s t h ht
  cases hp : s.pending with
  | nil =>
    rw [step_of_nil hp] at ht
    exact Host.Outcome.next.inj ht ▸ State.tick_feedsGood h
  | cons c rest =>
    rw [step_of_cons hp] at ht
    exact exec_feedsGood (s := { s with pending := rest }) h ht

end Sys2Proof.Machine
end


section
/-! Resets, and the lane commands that change one receiver alone: what is discarded, the signal's return, losses on a link
that is not LOCKED, starts of headers, and the symbols of a line. -/

namespace Sys2Proof.Machine

/-! ## Reset -/

/-- Settles O4: each word and each block of the reset state is read off its definition. -/
theorem resetStateHolds : Obligations.ResetStateHolds := by
  refine ⟨by decide, fun f => ?_, fun i => ?_, rfl, rfl, rfl, rfl, rfl, rfl, rfl, rfl, rfl, rfl, rfl, rfl, rfl, rfl, rfl, rfl⟩
  · simp [State.reset, Front.reset, Engine.reset, Attention.reset, Receiver.reset, FeedTimer.reset, Tally.zero]
  · simp [State.reset, Engine.reset]

theorem Front.reset_feedsGood : Front.reset.feedsGood := by
  intro f
  have : feedGood Receiver.reset FeedTimer.reset := feedGood.reset false
  simpa [Front.reset] using this

theorem Engine.reset_poolGood : Engine.reset.poolGood := by
  intro f
  simp [Engine.reset, Engine.heldBy]

/-- Settles O5. -/
theorem resetMeetsInvariants : Obligations.ResetMeetsInvariants :=
  ⟨⟨List.Pairwise.nil, nofun⟩, Front.reset_feedsGood, Engine.reset_poolGood⟩

/-- What the link had delivered to the host stays delivered at a reset (R150). -/
theorem State.delivered_prefix_atReset (s : State) : s.front.delivered <+: s.deliveredAtReset := by
  unfold State.deliveredAtReset
  split
  · exact List.prefix_rfl
  · exact List.prefix_append _ _

theorem State.frontAtReset_receivers (s : State) (c : Count) (g : FeedId → Bool) (f : FeedId) :
    (s.frontAtReset c g).receivers[f] = { Receiver.reset with signal := g f } := by
  simp [State.frontAtReset]

theorem State.frontAtReset_feed (s : State) (c : Count) (g : FeedId → Bool) (f : FeedId) :
    (s.frontAtReset c g).timers[f] = FeedTimer.reset ∧ (s.frontAtReset c g).reduce[f] = none := by
  simp [State.frontAtReset, Front.reset]

/-- Settles O6: the two resets differ in the count and in the lanes' signals alone. -/
theorem resetCommandsResult : Obligations.ResetCommandsResult := by
  intro c s hc
  rcases hc with rfl | rfl
  · refine ⟨_, rfl, rfl, rfl, rfl, rfl, rfl, rfl, rfl, rfl, rfl, fun f => ⟨?_, s.frontAtReset_feed _ _ f⟩, rfl,
      s.delivered_prefix_atReset⟩
    exact s.frontAtReset_receivers ..
  · refine ⟨_, rfl, rfl, rfl, rfl, rfl, rfl, rfl, rfl, rfl, rfl, fun f => ⟨?_, s.frontAtReset_feed _ _ f⟩, rfl,
      s.delivered_prefix_atReset⟩
    rw [s.frontAtReset_receivers]
    simp [State.receiver_eq]

/-! ## Symbols -/

theorem State.symbol_of_listens {f : FeedId} {s : State} (he : s.front.receivers[f].enabled = true)
    (hs : s.front.receivers[f].signal = true) (taken : State → State) : s.symbol f taken = taken (s.cutHeader f) :=
  if_pos (by simp [State.receiver_eq, Receiver.listens, he, hs, -Fin.getElem_fin])

theorem State.symbol_of_not_listens {f : FeedId} {s : State}
    (h : s.front.receivers[f].enabled = false ∨ s.front.receivers[f].signal = false) (taken : State → State) :
    s.symbol f taken = s :=
  if_neg (by rcases h with h | h <;> simp [State.receiver_eq, Receiver.listens, h, -Fin.getElem_fin])

theorem State.cutHeader_of_none {f : FeedId} {s : State} (h : s.front.receivers[f].inHeader = false) :
    s.cutHeader f = s := if_neg (by rw [State.receiver_eq, h]; simp)

/-- FRAME_HEADER whose last field arrives on a header in progress (R3, R4). -/
theorem execFrameHeader_of_inHeader {f : FeedId} {chars : List Byte} {s : State}
    (he : s.front.receivers[f].enabled = true) (hs : s.front.receivers[f].signal = true)
    (hh : s.front.receivers[f].inHeader = true) (hc : chars.length = 12) : exec (.frameHeader f chars) s =
      .next (if headerGood chars then s.acceptHeader f (parseHeader chars) else s.breakHeader f).settle := by
  show execFrameHeader f chars s = _
  unfold execFrameHeader
  dsimp only
  rw [if_pos (by simp [State.receiver_eq, Receiver.listens, he, hs, hh, hc, -Fin.getElem_fin])]

/-- Settles O11. -/
theorem symbolsDiscarded : Obligations.SymbolsDiscarded := by
  intro f chars s hr h
  have hsym : ∀ taken, Host.Outcome.next (s.symbol f taken).settle = (.next s : Host.Outcome State Fault Refusal) := by
    intro taken
    rw [State.symbol_of_not_listens h, State.settle_of_atRest hr]
  refine ⟨hsym _, ?_, hsym _, hsym _, hsym _, hsym _⟩
  show execFrameHeader f chars s = _
  unfold execFrameHeader
  dsimp only
  rw [if_neg (by rcases h with h | h <;> simp [State.receiver_eq, Receiver.listens, h, -Fin.getElem_fin]),
    State.settle_of_atRest hr]

/-! ## Signals and deadlines of a link that is not LOCKED -/

theorem Engine.ask_refillWaits (e : Engine) (w : WriteRequest) (f : FeedId) :
    (e.ask w).port.refillWaits f = e.port.refillWaits f := by
  simp [Port.refillWaits]

/-- With the part at rest and the link busy, an asked write gives rise to no act. -/
theorem State.settle_of_ask {s s' : State} (h : s.atRest = true) (hb : s.linkBusy = true) {w : WriteRequest}
    (ha : s'.front.attention = s.front.attention) (he : s'.eng = s.eng.ask w) : s'.settle = s' := by
  refine State.settle_of_same h hb ha (he ▸ Engine.ask_sameWork _ _) fun f hf => ?_
  rw [he, Engine.ask_refillWaits, hf]

theorem State.settle_onReceiver_ask {s : State} (h : s.atRest = true) (hb : s.linkBusy = true) (f : FeedId)
    (g : Receiver → Receiver) (w : WriteRequest) :
    ((s.onReceiver f g).act fun _ e => e.ask w).settle = (s.onReceiver f g).act fun _ e => e.ask w :=
  State.settle_of_ask h hb rfl rfl

/-- A change of one receiver gives rise to no act in a part at rest. -/
theorem State.settle_onReceiver {s : State} (h : s.atRest = true) (f : FeedId) (g : Receiver → Receiver) :
    (s.onReceiver f g).settle = s.onReceiver f g := State.settle_of_front h rfl rfl

theorem State.setLink_of_ne {f : FeedId} {l : Link} {s : State} (h : s.front.receivers[f].link ≠ l) :
    s.setLink f l = (s.onReceiver f fun r => { r with link := l }).act fun _ e => e.ask (.link f) := if_neg h

/-- Settles O12. -/
theorem signalReturnResult : Obligations.SignalReturnResult := by
  intro f s hr hb
  refine ⟨fun he hl => ?_, fun h => ?_⟩
  · show execSignalReturn f s = _
    unfold execSignalReturn
    dsimp only
    rw [if_pos ⟨he, hl⟩, State.onReceiver_onReceiver, State.setLink_of_ne, State.onReceiver_onReceiver,
      State.settle_onReceiver_ask hr hb]
    rw [State.onReceiver_front, Front.updReceiver_receivers, upd_same, hl]
    simp
  · show execSignalReturn f s = _
    unfold execSignalReturn
    dsimp only
    rw [State.receiver_eq, if_neg h, State.settle_onReceiver hr]

theorem execLossDeadlineExpiry_of_due {f : FeedId} {s : State} (h : s.front.timers[f].deadline = some 0) :
    exec (.lossDeadlineExpiry f) s = .next (s.expireDeadline f).settle := by
  show execLossDeadlineExpiry f s = _
  unfold execLossDeadlineExpiry State.takeDeadline Front.deadlineDue
  rw [if_pos (by simp [h, -Fin.getElem_fin])]

/-- Settles O13. -/
theorem unlockedLossResult : Obligations.UnlockedLossResult := by
  intro f s hr hb
  refine ⟨fun he hs hl => ?_, fun h => ?_, fun hd hl => ?_, fun hd hl => ?_⟩
  · rw [execSignalLoss_of_listens he hs, if_neg (by rw [hl]; simp), State.setLink_of_ne, State.onReceiver_onReceiver,
      State.settle_onReceiver_ask hr hb]
    · rfl
    · rw [State.onReceiver_front, Front.updReceiver_receivers, upd_same]
      show s.front.receivers[f].link ≠ .dark
      rw [hl]
      simp
  · rw [execSignalLoss_of_not_listens h, State.settle_onReceiver hr]
  · rw [execLossDeadlineExpiry_of_due hd]
    have : s.expireDeadline f = (s.onFront fun x => x.updTimer f fun k => { k with deadline := none }).onReceiver f
        fun r => { r with candidate := false } := by
      unfold State.expireDeadline
      dsimp only
      rw [State.receiver_eq, State.onFront_front, Front.updTimer_receivers, hl]
    rw [this]
    exact congrArg _ (State.settle_of_front hr rfl rfl)
  · rw [execLossDeadlineExpiry_of_due hd]
    have : s.expireDeadline f = s.onFront fun x => x.updTimer f fun k => { k with deadline := none } := by
      unfold State.expireDeadline
      dsimp only
      rw [State.receiver_eq, State.onFront_front, Front.updTimer_receivers, hl]
    rw [this]
    exact congrArg _ (State.settle_of_front hr rfl rfl)

/-! ## Starts of headers -/

/-- Settles O16. -/
theorem frameHeaderStartsOrBreaks : Obligations.FrameHeaderStartsOrBreaks := by
  refine ⟨fun f s hr he hs ho => ?_, fun f chars s hr he hs hh hc hsum => ?_⟩
  · show Host.Outcome.next (s.symbol f _).settle = _
    rw [State.symbol_of_listens he hs, State.cutHeader_eq, State.onReceiver_onReceiver, State.closeFrame_of_none (by exact ho),
      State.settle_onReceiver hr]
    rfl
  · have hbad : headerGood chars = false := by
      simpa [headerGood, headerSum, parseHeader] using hsum
    rw [execFrameHeader_of_inHeader he hs hh hc, hbad, if_neg (by simp)]
    exact congrArg _ (State.settle_onReceiver hr f _)

/-! ## Lines -/

theorem Receiver.settings_of_active {r : Receiver} {n : Settings} (h : r.active = some n) : r.settings = n := by
  rw [Receiver.settings, h, Option.getD_some]

theorem Front.settings_of_active {x : Front} {f : FeedId} {n : Settings} (h : x.receivers[f].active = some n) :
    x.settings f = n := Receiver.settings_of_active h

/-- A change of the cut-off receiver alone gives rise to no act in a part at rest. -/
theorem State.settle_cutHeader_onReceiver {f : FeedId} {s : State} (hr : s.atRest = true) (g : Receiver → Receiver) :
    ((s.cutHeader f).onReceiver f g).settle = (s.cutHeader f).onReceiver f g := by
  rw [State.cutHeader_eq]
  exact State.settle_of_front hr rfl rfl

theorem State.settle_cutHeader {f : FeedId} {s : State} (hr : s.atRest = true) :
    (s.cutHeader f).settle = s.cutHeader f := by
  rw [State.cutHeader_eq]
  exact State.settle_of_front hr rfl rfl

theorem State.cutHeader_active (f : FeedId) (s : State) :
    (s.cutHeader f).front.receivers[f].active = s.front.receivers[f].active := by
  rw [State.cutHeader_eq, State.onReceiver_front, Front.updReceiver_receivers, upd_same]
  rfl

theorem fieldAt_two (lo hi : Byte) (rest : List Byte) :
    fieldAt (lo :: hi :: rest) 0 2 = lo.toNat + 256 * hi.toNat := by
  simp [fieldAt, leNat]

/-- A Line Marker under MARKED framing (R11). -/
theorem Receiver.takeMarker_of_marked {r : Receiver} (h : r.settings.framing = .marked) (chars : List Byte) :
    r.takeMarker chars = { r with line := (match chars with
      | lo :: hi :: _ =>
        if lo.toNat + 256 * hi.toNat < r.settings.h then LineBuffer.numbered (lo.toNat + 256 * hi.toNat) [] else .discarding
      | _ => .discarding) } := by
  unfold Receiver.takeMarker
  rw [h]
  match chars with
  | [] => rfl
  | [_] => rfl
  | lo :: hi :: rest => simp [parseMarker, fieldAt_two]

/-- Settles O25. -/
theorem lineSymbolsResult : Obligations.LineSymbolsResult := by
  intro f chars n s hr he hs hn cut p
  have hset : cut.front.receivers[f].settings = n :=
    Receiver.settings_of_active ((State.cutHeader_active f s).trans hn)
  have hsym : ∀ g : Receiver → Receiver, Host.Outcome.next (s.symbol f fun s => s.onReceiver f g).settle =
      (.next (cut.onReceiver f g) : Host.Outcome State Fault Refusal) := by
    intro g
    rw [State.symbol_of_listens he hs, State.settle_cutHeader_onReceiver hr]
  have hsample : exec (.sampleData f chars) s = .next (State.takeSample f chars cut).settle := by
    show Host.Outcome.next (s.symbol f _).settle = _
    rw [State.symbol_of_listens he hs]
  have hopen : cut.eng.opened = s.eng.opened := by
    show (s.cutHeader f).eng.opened = _
    rw [State.cutHeader_eq]
    rfl
  have hpair : 5 ≤ chars.length → exec (.sampleData f chars) s =
      .next (cut.onReceiver f (Receiver.takePair s.eng.opened[f].isSome p)) := by
    intro hc
    rw [hsample]
    unfold State.takeSample parsePair
    rw [if_pos hc]
    dsimp only
    rw [State.settle_cutHeader_onReceiver hr, hopen]
  refine ⟨fun hf => ?_, fun hf => ?_, fun hc => ?_, fun hc hf => ?_, fun hc hf => ?_⟩
  · refine (hsym _).trans ?_
    rw [State.onReceiver_self]
    unfold Receiver.takeMarker
    rw [hset, hf]
  · refine (hsym _).trans ?_
    rw [State.onReceiver_congr]
    rw [Receiver.takeMarker_of_marked (by rw [hset, hf]), hset] <;> rfl
  · rw [hsample]
    unfold State.takeSample parsePair
    rw [if_neg (by omega)]
    exact congrArg _ (State.settle_cutHeader hr)
  · rw [hpair hc, State.onReceiver_congr]
    unfold Receiver.takePair
    rw [hset, hf]
    cases hl : cut.front.receivers[f].line <;> simp only [← hl]
  · rw [hpair hc, State.onReceiver_congr]
    unfold Receiver.takePair
    rw [hset, hf]
    cases s.eng.opened[f].isSome <;> rfl

end Sys2Proof.Machine
end


section
/-! Metadata Packets (R19, R20): the items of a packet, and what one item makes of the Field Metadata Record. -/

namespace Sys2Proof.Machine

/-! ## A packet's items -/

theorem fieldAt_drop (chars : List Byte) (k off len : Nat) :
    fieldAt (chars.drop k) off len = fieldAt chars (k + off) len := by
  simp [fieldAt, List.drop_drop]

/-- The complete items of a run of characters, each at its seven characters. -/
theorem parseItems_eq (n : Nat) (chars : List Byte) : parseItems n chars =
    (List.range (min n (chars.length / 7))).map fun i =>
      (⟨BitVec.ofNat 8 (fieldAt chars (7 * i) 1), BitVec.ofNat 48 (fieldAt chars (7 * i + 1) 6)⟩ : Item) := by
  induction n generalizing chars with
  | zero => simp [parseItems]
  | succ n ih =>
    unfold parseItems
    split
    · rename_i h
      have hmin : min (n + 1) (chars.length / 7) = min n ((chars.length - 7) / 7) + 1 := by omega
      have hoff : ∀ i, 7 + 7 * i = 7 * (i + 1) ∧ 7 + (7 * i + 1) = 7 * (i + 1) + 1 := fun i => by omega
      rw [ih, hmin, List.range_succ_eq_map, List.map_cons, List.map_map, List.length_drop]
      simp only [fieldAt_drop, Function.comp_def, hoff, Nat.succ_eq_add_one, Nat.mul_zero, Nat.zero_add]
    · have : min (n + 1) (chars.length / 7) = 0 := by omega
      rw [this, List.range_zero, List.map_nil]

/-! ## One item -/

theorem itemValue_filter (l : List Item) (t tag : Byte) :
    itemValue (l.filter fun k => k.tag != t) tag = if tag = t then none else itemValue l tag := by
  unfold itemValue
  rw [List.find?_filter]
  split
  · rename_i h
    rw [List.find?_eq_none.mpr, Option.map_none]
    intro k _
    simp [h]
  · rename_i h
    congr 2
    funext k
    by_cases hk : k.tag = tag
    · simp [hk, h]
    · simp [hk]

theorem itemValue_insertItem (i : Item) (l : List Item) (tag : Byte) :
    itemValue (insertItem i l) tag = if tag = i.tag then some i.value else itemValue l tag := by
  have hlow : (l.filter fun k => decide (k.tag < i.tag)).find? (fun k => k.tag == tag) =
      if tag < i.tag then l.find? (fun k => k.tag == tag) else none := by
    rw [List.find?_filter]
    split
    · rename_i h
      congr 1
      funext k
      by_cases hk : k.tag = tag <;> simp [hk, h]
    · rename_i h
      refine List.find?_eq_none.mpr fun k _ => ?_
      by_cases hk : k.tag = tag <;> simp [hk, h]
  have hhigh : (l.filter fun k => decide (i.tag < k.tag)).find? (fun k => k.tag == tag) =
      if i.tag < tag then l.find? (fun k => k.tag == tag) else none := by
    rw [List.find?_filter]
    split
    · rename_i h
      congr 1
      funext k
      by_cases hk : k.tag = tag <;> simp [hk, h]
    · rename_i h
      refine List.find?_eq_none.mpr fun k _ => ?_
      by_cases hk : k.tag = tag <;> simp [hk, h]
  unfold itemValue insertItem
  rw [List.find?_append, List.find?_cons, hlow, hhigh]
  rcases Nat.lt_trichotomy tag.toNat i.tag.toNat with h | h | h
  · have h1 : tag < i.tag := h
    have h2 : ¬i.tag < tag := by rw [BitVec.lt_def]; omega
    have h3 : tag ≠ i.tag := BitVec.ne_of_lt h1
    simp [h1, h2, h3, beq_eq_false_iff_ne.mpr h3.symm]
  · have h : tag = i.tag := BitVec.eq_of_toNat_eq h
    simp [h]
  · have h1 : i.tag < tag := h
    have h2 : ¬tag < i.tag := by rw [BitVec.lt_def]; omega
    have h3 : i.tag ≠ tag := BitVec.ne_of_lt h1
    simp [h1, h2, h3.symm, beq_eq_false_iff_ne.mpr h3]

theorem mem_insertTag (t tag : Byte) (l : List Byte) : tag ∈ insertTag t l ↔ tag ∈ l ∨ tag = t := by
  simp only [insertTag, List.mem_append, List.mem_cons, List.mem_filter, decide_eq_true_eq, BitVec.lt_def,
    ← BitVec.toNat_inj]
  constructor
  · rintro (⟨h, -⟩ | h | ⟨h, -⟩)
    · exact .inl h
    · exact .inr h
    · exact .inl h
  · rintro (h | h)
    · rcases Nat.lt_trichotomy tag.toNat t.toNat with hlt | heq | hlt
      · exact .inl ⟨h, hlt⟩
      · exact .inr (.inl heq)
      · exact .inr (.inr ⟨h, hlt⟩)
    · exact .inr (.inl h)

/-- One item is discarded or changes nothing, removes its tag, or sets its tag's value. -/
theorem Receiver.applyItem_cases (r : Receiver) (i : Item) :
    (r.applyItem i = r ∧ (i.tag = 0 ∨ i.value ≠ 0 ∧ itemValue r.metadata i.tag = some i.value ∨
      itemValue r.metadata i.tag = none ∧ (i.value = 0 ∨ 8 ≤ r.metadata.length))) ∨
    (i.tag ≠ 0 ∧ i.value = 0 ∧ itemValue r.metadata i.tag ≠ none ∧ r.applyItem i = { r with
      metadata := r.metadata.filter fun k => k.tag != i.tag, changed := insertTag i.tag r.changed }) ∨
    (i.tag ≠ 0 ∧ i.value ≠ 0 ∧ itemValue r.metadata i.tag ≠ some i.value ∧
      (itemValue r.metadata i.tag = none → r.metadata.length < 8) ∧ r.applyItem i = { r with
        metadata := insertItem i r.metadata, changed := insertTag i.tag r.changed }) := by
  unfold Receiver.applyItem
  split
  · rename_i ht
    exact .inl ⟨rfl, .inl ht⟩
  · rename_i ht
    split
    · rename_i old hold
      have hv : itemValue r.metadata i.tag = some old.value := by rw [itemValue, hold, Option.map_some]
      split
      · rename_i h0
        exact .inr (.inl ⟨ht, h0, by simp [hv], rfl⟩)
      · rename_i h0
        split
        · rename_i hold
          exact .inl ⟨rfl, .inr (.inl ⟨h0, hold ▸ hv⟩)⟩
        · rename_i hold
          exact .inr (.inr ⟨ht, h0, by simpa [hv] using hold, by simp [hv], rfl⟩)
    · rename_i hnone
      have hv : itemValue r.metadata i.tag = none := by rw [itemValue, hnone, Option.map_none]
      split
      · rename_i h
        exact .inl ⟨rfl, .inr (.inr ⟨hv, h⟩)⟩
      · rename_i h
        exact .inr (.inr ⟨ht, fun h0 => h (.inl h0), by simp [hv], fun _ => by omega, rfl⟩)

/-- Settles O28: the items of a packet, and the three things an item can do to the record. -/
theorem metadataPacketAndItems : Obligations.MetadataPacketAndItems := by
  refine ⟨fun f count items s hr he hs => ?_, fun r i hg => ?_⟩
  · have hexec : exec (.metadataPacket f (count :: items)) s = .next ((s.cutHeader f).onReceiver f fun r =>
        (parsePacket (count :: items)).foldl Receiver.applyItem r) := by
      show Host.Outcome.next (s.symbol f _).settle = _
      rw [State.symbol_of_listens he hs, State.settle_cutHeader_onReceiver hr]
    refine ⟨fun hc => ?_, fun h1 h8 => ?_⟩
    · have : ¬(1 ≤ count.toNat ∧ count.toNat ≤ 8) := by
        rcases hc with rfl | hc
        · simp
        · omega
      rw [hexec, parsePacket, if_neg (by simpa using this)]
      exact congrArg _ (State.onReceiver_self rfl)
    · rw [hexec, parsePacket, if_pos (by simp [h1, h8]), parseItems_eq]
  · intro r'
    refine ⟨Receiver.applyItem_metadataGood hg i, ?_⟩
    rcases r.applyItem_cases i with ⟨hr, hwhy⟩ | ⟨ht, h0, hsome, hr⟩ | ⟨ht, h0, hne, hroom, hr⟩
    · have hr : r' = r := hr
      rw [hr]
      refine ⟨fun _ _ => rfl, fun _ => rfl, fun ht h0 => ?_, fun ht h0 hroom => ?_, fun _ _ _ => rfl, by simp, rfl⟩
      · rcases hwhy with h | ⟨h, -⟩ | ⟨h, -⟩
        · exact absurd h ht
        · exact absurd h0 h
        · exact h
      · rcases hwhy with h | ⟨-, h⟩ | ⟨h, h' | h'⟩
        · exact absurd h ht
        · exact h
        · exact absurd h' h0
        · rcases hroom with hroom | hroom
          · exact absurd h hroom
          · omega
    · have hm : r'.metadata = r.metadata.filter fun k => k.tag != i.tag := congrArg Receiver.metadata hr
      have hc : r'.changed = insertTag i.tag r.changed := congrArg Receiver.changed hr
      rw [hm, hc]
      refine ⟨fun tag htag => ?_, fun h => absurd h ht, fun _ _ => ?_, fun _ h => absurd h0 h, fun h => absurd h0 h,
        fun tag => ?_, hr⟩
      · rw [itemValue_filter, if_neg htag]
      · rw [itemValue_filter, if_pos rfl]
      · rw [mem_insertTag, itemValue_filter]
        refine or_congr_right ⟨fun h => ⟨h, ?_⟩, fun h => h.1⟩
        rw [if_pos h, h]
        exact hsome.symm
    · have hm : r'.metadata = insertItem i r.metadata := congrArg Receiver.metadata hr
      have hc : r'.changed = insertTag i.tag r.changed := congrArg Receiver.changed hr
      rw [hm, hc]
      refine ⟨fun tag htag => ?_, fun h => absurd h ht, fun _ h => absurd h h0, fun _ _ _ => ?_, fun _ hnone hlen => ?_,
        fun tag => ?_, hr⟩
      · rw [itemValue_insertItem, if_neg htag]
      · rw [itemValue_insertItem, if_pos rfl]
      · have := hroom hnone
        omega
      · rw [mem_insertTag, itemValue_insertItem]
        refine or_congr_right ⟨fun h => ⟨h, ?_⟩, fun h => h.1⟩
        rw [if_pos h, h]
        exact hne.symm

end Sys2Proof.Machine
end


section
/-! Pictures in card DRAM: where the bytes of a line stand, and what concealment makes of them (R16). -/

namespace Sys2Proof.Machine

/-! ## Bytes of lines -/

theorem Dram.readRange_length (m : Dram) (a n : Nat) : (m.readRange a n).length = n := by
  simp [Dram.readRange]

/-- Two lines of a slot share no byte. -/
theorem lineAddr_disjoint (i : SlotId) (w : Nat) {y z j : Nat} (h : z ≠ y) (hj : j < 4 * w) :
    lineAddr i w z + j < lineAddr i w y ∨ lineAddr i w y + 4 * w ≤ lineAddr i w z + j := by
  unfold lineAddr
  rcases Nat.lt_or_gt_of_ne h with h | h
  · have := Nat.mul_le_mul_right (4 * w) (Nat.succ_le_of_lt h)
    rw [Nat.succ_mul] at this
    omega
  · have := Nat.mul_le_mul_right (4 * w) (Nat.succ_le_of_lt h)
    rw [Nat.succ_mul] at this
    omega

/-- A missing line becomes a copy of its source line. -/
def Dram.copyLine (i : SlotId) (w : Nat) (received : List Nat) (m : Dram) (y : Nat) : Dram :=
  Dram.writeRange m (lineAddr i w y) (Dram.readRange m (lineAddr i w (concealSource received y)) (4 * w))

theorem Dram.conceal_eq (m : Dram) (i : SlotId) (w h : Nat) (received : List Nat) :
    m.conceal i w h received = (missingLines h received).foldl (Dram.copyLine i w received) m := rfl

theorem Dram.read_copyLine_other (i : SlotId) (w : Nat) (received : List Nat) (m : Dram) {y z j : Nat} (h : z ≠ y)
    (hj : j < 4 * w) : (Dram.copyLine i w received m y).read (lineAddr i w z + j) = m.read (lineAddr i w z + j) := by
  refine Dram.read_writeRange_outside _ _ _ ?_
  rw [Dram.readRange_length]
  exact lineAddr_disjoint i w h hj

theorem Dram.read_copyLine_self (i : SlotId) (w : Nat) (received : List Nat) (m : Dram) {y j : Nat} (hj : j < 4 * w) :
    (Dram.copyLine i w received m y).read (lineAddr i w y + j) =
      m.read (lineAddr i w (concealSource received y) + j) := by
  unfold Dram.copyLine
  rw [Dram.read_writeRange_inside _ _ _ (by rwa [Dram.readRange_length])]
  simp [Dram.readRange]

/-- Copying lines leaves every other line alone. -/
theorem Dram.read_copyLines_other (i : SlotId) (w : Nat) (received : List Nat) {z j : Nat} (hj : j < 4 * w)
    (ys : List Nat) (m : Dram) (h : z ∉ ys) :
    (ys.foldl (Dram.copyLine i w received) m).read (lineAddr i w z + j) = m.read (lineAddr i w z + j) := by
  induction ys generalizing m with
  | nil => rfl
  | cons y ys ih =>
    obtain ⟨hy, hys⟩ := not_or.mp (mt List.mem_cons.mpr h)
    rw [List.foldl_cons, ih _ hys, Dram.read_copyLine_other _ _ _ _ hy hj]

/-- Copying lines whose sources are not copied to gives each the bytes of its source. -/
theorem Dram.read_copyLines_self (i : SlotId) (w : Nat) (received : List Nat) {y j : Nat} (hj : j < 4 * w)
    (ys : List Nat) (m : Dram) (hy : y ∈ ys) (hnd : ys.Nodup) (hsrc : concealSource received y ∉ ys) :
    (ys.foldl (Dram.copyLine i w received) m).read (lineAddr i w y + j) =
      m.read (lineAddr i w (concealSource received y) + j) := by
  induction ys generalizing m with
  | nil => cases hy
  | cons z ys ih =>
    obtain ⟨hz, hnd⟩ := List.nodup_cons.mp hnd
    obtain ⟨hne, hsrc⟩ := not_or.mp (mt List.mem_cons.mpr hsrc)
    rw [List.foldl_cons]
    rcases List.mem_cons.mp hy with rfl | hy
    · rw [Dram.read_copyLines_other _ _ _ hj _ _ hz, Dram.read_copyLine_self _ _ _ _ hj]
    · rw [ih _ hy hnd hsrc, Dram.read_copyLine_other _ _ _ _ hne hj]

/-! ## The source of a missing line -/

theorem mem_missingLines {h y : Nat} {received : List Nat} : y ∈ missingLines h received ↔ y < h ∧ y ∉ received := by
  simp [missingLines]

theorem missingLines_nodup (h : Nat) (received : List Nat) : (missingLines h received).Nodup :=
  List.nodup_range.filter _

/-- R16: the source is the nearest received line below, else the nearest above. -/
theorem concealSource_spec {received : List Nat} (hne : received ≠ []) (hs : received.Pairwise (· < ·)) {y : Nat}
    (hy : y ∉ received) : concealSource received y ∈ received ∧
      ((concealSource received y < y ∧ ∀ u ∈ received, u < y → u ≤ concealSource received y) ∨
        (y < concealSource received y ∧ (∀ u ∈ received, y < u) ∧ ∀ u ∈ received, concealSource received y ≤ u)) := by
  unfold concealSource
  split
  · rename_i z hz
    obtain ⟨l, hl⟩ := List.getLast?_eq_some_iff.mp hz
    have hmem : ∀ u, u ∈ received ∧ u < y ↔ u ∈ l ++ [z] := fun u => by rw [← hl]; simp
    have hsort := hs.filter (· < y)
    rw [hl, List.pairwise_append] at hsort
    obtain ⟨hzm, hzy⟩ := (hmem z).mpr (by simp)
    refine ⟨hzm, .inl ⟨hzy, fun u hu huy => ?_⟩⟩
    rcases List.mem_append.mp ((hmem u).mp ⟨hu, huy⟩) with hul | huz
    · exact Nat.le_of_lt (hsort.2.2 u hul z (by simp))
    · exact Nat.le_of_eq (by simpa using huz)
  · rename_i hnone
    have habove : ∀ u ∈ received, y < u := by
      intro u hu
      have : ¬u < y := by
        have := List.getLast?_eq_none_iff.mp hnone
        rw [List.filter_eq_nil_iff] at this
        simpa using this u hu
      have : u ≠ y := fun h => hy (h ▸ hu)
      omega
    have hall : received.filter (y < ·) = received :=
      List.filter_eq_self.mpr fun u hu => by simpa using habove u hu
    rw [hall]
    cases received with
    | nil => exact absurd rfl hne
    | cons z rest =>
      simp only [List.head?_cons, Option.getD_some]
      refine ⟨List.mem_cons_self, .inr ⟨habove z List.mem_cons_self, habove, fun u hu => ?_⟩⟩
      rcases List.mem_cons.mp hu with rfl | hu
      · exact Nat.le_refl _
      · exact Nat.le_of_lt ((List.pairwise_cons.mp hs).1 u hu)

/-- Settles O56: received lines are never written, and each missing line is written once, from a received one. -/
theorem concealmentCopies : Obligations.ConcealmentCopies := by
  intro m i w h received hne hs
  refine ⟨fun y hy j hj => ?_, fun y hyh hy => ?_⟩
  · rw [Dram.conceal_eq, Dram.read_copyLines_other _ _ _ hj]
    exact fun hm => (mem_missingLines.mp hm).2 hy
  · obtain ⟨hmem, hnear⟩ := concealSource_spec hne hs hy
    refine ⟨concealSource received y, hmem, hnear, fun j hj => ?_⟩
    exact Dram.read_copyLines_self i w received hj _ m (mem_missingLines.mpr ⟨hyh, hy⟩) (missingLines_nodup h received)
      fun hm => (mem_missingLines.mp hm).2 hmem

end Sys2Proof.Machine
end


section
/-! Settings blocks: what an applied block makes of its feed, and the completion of a LOAD's read (R21, R22, R155, R157). -/

namespace Sys2Proof.Machine

/-! ## What an applied block makes of the front -/

theorem formatChanged_iff {m n : Settings} : formatChanged (some m) n = true ↔
    n.framing ≠ m.framing ∨ n.rate ≠ m.rate ∨ n.w ≠ m.w ∨ n.h ≠ m.h := by
  have : formatChanged (some m) n = true ↔ m.framing ≠ n.framing ∨ m.rate ≠ n.rate ∨ m.w ≠ n.w ∨ m.h ≠ n.h := by
    simp only [formatChanged, Bool.or_eq_true, bne_iff_ne, or_assoc]
  exact this.trans (or_congr ne_comm (or_congr ne_comm (or_congr ne_comm ne_comm)))

theorem Front.applyBlock_attention (f : FeedId) (x : Front) (b : Block) :
    (x.applyBlock f b).attention = x.attention := by
  cases b with
  | disabling => rfl
  | enabling n =>
    show (x.applyEnabling f n).attention = _
    unfold Front.applyEnabling
    split <;> rfl

theorem Front.applyBlock_refCount (f : FeedId) (x : Front) (b : Block) : (x.applyBlock f b).refCount = x.refCount := by
  cases b with
  | disabling => rfl
  | enabling n =>
    show (x.applyEnabling f n).refCount = _
    unfold Front.applyEnabling
    split <;> rfl

/-- A settings block touches no other feed's receiver or timer. -/
theorem Front.applyBlock_other {f g : FeedId} (hg : g ≠ f) (x : Front) (b : Block) :
    (x.applyBlock f b).receivers[g] = x.receivers[g] ∧ (x.applyBlock f b).timers[g] = x.timers[g] := by
  cases b with
  | disabling =>
    show (x.applyDisabling f).receivers[g] = _ ∧ (x.applyDisabling f).timers[g] = _
    exact ⟨upd_other _ hg _, upd_other _ hg _⟩
  | enabling n =>
    show (x.applyEnabling f n).receivers[g] = _ ∧ (x.applyEnabling f n).timers[g] = _
    unfold Front.applyEnabling
    split
    · exact ⟨(upd_other _ hg _).trans (upd_other _ hg _), upd_other _ hg _⟩
    · exact ⟨upd_other _ hg _, rfl⟩

/-- A disabling block turns the feed OFF (R22, R31). -/
theorem Front.applyDisabling_feed (f : FeedId) (x : Front) :
    (x.applyBlock f .disabling).receivers[f] = { x.receivers[f].disabling with link := .dark } ∧
      (x.applyBlock f .disabling).timers[f] = .reset := by
  show (x.applyDisabling f).receivers[f] = _ ∧ (x.applyDisabling f).timers[f] = _
  exact ⟨upd_same .., upd_same ..⟩

theorem Front.applyEnabling_reduce (f : FeedId) (n : Settings) (x : Front) :
    (x.applyBlock f (.enabling n)).reduce[f] = some n.reduceContext := by
  show (x.applyEnabling f n).reduce[f] = _
  unfold Front.applyEnabling
  split <;> exact upd_same ..

/-- Settings of another format, or of a feed that was OFF, restart the feed (R21, R31). -/
theorem Front.applyEnabling_feed_of_restarts {f : FeedId} {n : Settings} {x : Front}
    (h : x.receivers[f].restarts n = true) :
    (x.applyBlock f (.enabling n)).receivers[f] =
        { Receiver.enabling { x.receivers[f] with active := some n } with link := x.receivers[f].enabledLink } ∧
      (x.applyBlock f (.enabling n)).timers[f] = .reset := by
  show (x.applyEnabling f n).receivers[f] = _ ∧ (x.applyEnabling f n).timers[f] = _
  rw [Front.applyEnabling, if_pos h]
  refine ⟨?_, upd_same ..⟩
  rw [Front.updTimer_receivers, Front.updReceiver_receivers, upd_same]
  show ({ Receiver.enabling ((upd x.receivers f _)[f]) with link := _ } : Receiver) = _
  rw [upd_same]

/-- Settings of the same format change the active settings alone (R21). -/
theorem Front.applyEnabling_feed_of_same {f : FeedId} {n : Settings} {x : Front}
    (h : x.receivers[f].restarts n = false) :
    (x.applyBlock f (.enabling n)).receivers[f] = { x.receivers[f] with active := some n } ∧
      (x.applyBlock f (.enabling n)).timers = x.timers := by
  show (x.applyEnabling f n).receivers[f] = _ ∧ (x.applyEnabling f n).timers = _
  rw [Front.applyEnabling, if_neg (by rw [h]; simp)]
  exact ⟨upd_same .., rfl⟩

/-! ## The end of a request -/

/-- With no other feed's request and no global one, the Attention Unit is quiet once feed `f`'s request has ended. -/
theorem State.conclude_quiet {f : FeedId} {s : State} (h : s.front.attention.onlyFeed f = true) (q : FeedRequest)
    (res : Result) (n : Nat) : (s.conclude f q res n).front.attention.quiet = true := by
  simp only [Attention.onlyFeed, Bool.and_eq_true, List.all_eq_true, Bool.or_eq_true, beq_iff_eq,
    Option.isNone_iff_eq_none] at h
  obtain ⟨hg, hp⟩ := h
  have hnone : ∀ g : FeedId, (s.conclude f q res n).front.attention.pending[g] = none := by
    intro g
    show (upd s.front.attention.pending f fun _ => none)[g] = none
    rw [upd_get]
    split
    · rfl
    · rename_i hgf
      exact (hp g (List.mem_finRange g)).resolve_left fun h => hgf h.symm
  have hglobal : (s.conclude f q res n).front.attention.global = none := hg
  have hnext : (s.conclude f q res n).front.attention.nextFeed = none := by
    unfold Attention.nextFeed
    rw [List.findSome?_eq_none_iff]
    intro g _
    rw [hnone]
  simp only [Attention.quiet, hglobal, hnext, hnone, Bool.and_eq_true, Bool.or_eq_true, List.all_eq_true]
  exact ⟨.inr ⟨rfl, rfl⟩, fun g _ => rfl⟩

/-- The front once feed `f`'s request has been answered and the step is over. -/
theorem State.settle_conclude {f : FeedId} {s : State} (h : s.front.attention.onlyFeed f = true) (q : FeedRequest)
    (res : Result) (n : Nat) :
    (s.conclude f q res n).settle.front.attention.answers[f] =
        ⟨s.front.attention.answers[f].taken + 1, some q, some res, n⟩ ∧
      (s.conclude f q res n).settle.front.receivers = s.front.receivers ∧
      (s.conclude f q res n).settle.front.timers = s.front.timers ∧
      (s.conclude f q res n).settle.front.reduce = s.front.reduce := by
  rw [State.settle_front_of_quiet (State.conclude_quiet h q res n)]
  exact ⟨upd_same .., rfl, rfl, rfl⟩

/-! ## The completion of a settings block's read -/

/-- The data of a completion that is long enough are its bytes. -/
theorem completedBytes_of_length {use n : Nat} {bytes : List Byte} (h : bytes.length = n) :
    completedBytes use n bytes = bytes := by
  refine List.ext_getElem (by simp [completedBytes, h]) fun i _ hi => ?_
  simp [completedBytes, completedByte, List.getElem?_eq_getElem hi]

/-- The completion of the outstanding read acts on the read's block. -/
theorem execReadCompletion_of_outstanding {o : Outstanding} {s : State} (ho : s.eng.port.outstanding = some o)
    (r : Reply) : exec (.readCompletion ⟨o.number, r⟩) s = .next (s.completeOutstanding o r).settle := by
  show execReadCompletion ⟨o.number, r⟩ s = _
  unfold execReadCompletion
  rw [ho]
  exact congrArg _ (if_pos rfl)

theorem State.completeOutstanding_error {o : Outstanding} (hw : o.wanted = true) (s : State) :
    s.completeOutstanding o .error = (s.endRead.onFlags fun g => { g with linkFault := true }).readFails o.request :=
  if_pos hw

theorem State.completeOutstanding_data {o : Outstanding} (hw : o.wanted = true) {bytes : List Byte} {s : State}
    (hl : bytes.length = (o.request.span s.front.pageBase).2) :
    s.completeOutstanding o (.data bytes) = s.endRead.readArrives o.request bytes := by
  show s.endOutstanding o bytes = _
  unfold State.endOutstanding
  dsimp only
  rw [completedBytes_of_length hl, if_neg (Nat.not_lt.mpr hl.ge), if_pos hw]

/-- What a LOAD's block becomes, its read being over (R155, R157). -/
theorem State.settingsRead_error {f : FeedId} {q : FeedRequest} {bytes : List Byte} {index : Nat}
    (h : parseSettings bytes = .error index) (s : State) :
    s.settingsRead f q bytes = s.endService.conclude f q .badSetting index := by
  unfold State.settingsRead
  rw [h]

theorem State.settingsRead_refused {f : FeedId} {q : FeedRequest} {bytes : List Byte} {b : Block} {s : State}
    (h : parseSettings bytes = .ok b) (hb : s.endService.blockRefused f b = true) :
    s.settingsRead f q bytes = s.endService.conclude f q .refusedState 0 := by
  unfold State.settingsRead
  rw [h]
  exact if_pos hb

theorem State.settingsRead_taken {f : FeedId} {q : FeedRequest} {bytes : List Byte} {b : Block} {s : State}
    (h : parseSettings bytes = .ok b) (hb : s.endService.blockRefused f b = false) :
    s.settingsRead f q bytes = (s.endService.handOver f b).conclude f q .done 0 := by
  unfold State.settingsRead
  rw [h]
  exact if_neg (by rw [hb]; simp)

theorem State.handOver_attention (f : FeedId) (b : Block) (s : State) :
    (s.handOver f b).front.attention = s.front.attention := by
  by_cases h : s.front.receivers[f].enabled = true ∧ s.front.receivers[f].link = .locked
  · rw [State.handOver_of_locked b h]; rfl
  · rw [State.handOver_of_not_locked b h, State.applyBlock_front, Front.applyBlock_attention]; rfl

/-- A block handed over changes no other feed's receiver. -/
theorem State.handOver_other {f g : FeedId} (hg : g ≠ f) (b : Block) (s : State) :
    (s.handOver f b).front.receivers[g] = s.front.receivers[g] := by
  by_cases h : s.front.receivers[f].enabled = true ∧ s.front.receivers[f].link = .locked
  · rw [State.handOver_of_locked b h]; exact upd_other _ hg _
  · rw [State.handOver_of_not_locked b h, State.applyBlock_front, (Front.applyBlock_other hg _ b).1]
    exact upd_other _ hg _

/-- The format a block is compared with is that of the settings `m` (R157). -/
theorem Receiver.compared_eq {r : Receiver} {m : Settings}
    (h : r.waiting = some (.enabling m) ∨ r.waiting = none ∧ r.active = some m) : r.compared = some m := by
  unfold Receiver.compared
  rcases h with h | ⟨h, ha⟩
  · rw [h]
  · rw [h, ha]

theorem State.blockRefused_of_free {s : State} {f : FeedId} (h : s.eng.places[f].any = false) (b : Block) :
    s.blockRefused f b = false := by
  unfold State.blockRefused
  rw [h, Bool.false_and]

theorem State.blockRefused_enabling (s : State) (f : FeedId) (n : Settings) : s.blockRefused f (.enabling n) =
    (s.eng.places[f].any && formatChanged s.front.receivers[f].compared n) := rfl

theorem Receiver.restarts_of_enabled {r : Receiver} {n m : Settings} (he : r.enabled = true) (ha : r.active = some m) :
    r.restarts n = formatChanged (some m) n := by
  simp [Receiver.restarts, he, ha]

/-- The feed once the block has been taken and the step is over. -/
theorem State.settle_handOver {f : FeedId} {s : State} (h : s.front.attention.onlyFeed f = true) (q : FeedRequest)
    (b : Block) : ∀ t, t = ((s.handOver f b).conclude f q .done 0).settle →
      (t.front.attention.answers[f] = ⟨s.front.attention.answers[f].taken + 1, some q, some .done, 0⟩ ∧
        ∀ g : FeedId, g ≠ f → t.front.receivers[g] = s.front.receivers[g]) ∧
      t.front.receivers = (s.handOver f b).front.receivers ∧ t.front.timers = (s.handOver f b).front.timers ∧
      t.front.reduce = (s.handOver f b).front.reduce := by
  rintro t rfl
  have ha := s.handOver_attention f b
  obtain ⟨hans, hrec, htim, hred⟩ := State.settle_conclude (by rw [ha]; exact h) q .done 0
  rw [ha] at hans
  exact ⟨⟨hans, fun g hg => by rw [hrec, State.handOver_other hg]⟩, hrec, htim, hred⟩

/-- Settles O31. -/
theorem settingsReadResult : Obligations.SettingsReadResult := by
  intro f req o bytes s hreq ho hw honly hlen r answered taken differs
  let u := s.endRead.endService
  have hspan : (o.request.span s.front.pageBase).2 = 32 := by
    rcases hreq with ⟨-, h⟩ | ⟨-, h⟩ <;> rw [h] <;> rfl
  have htaken : taken = .next (s.endRead.settingsRead f req bytes).settle := by
    show exec _ s = _
    rw [execReadCompletion_of_outstanding ho, State.completeOutstanding_data hw (hlen.trans hspan.symm)]
    rcases hreq with ⟨rfl, h⟩ | ⟨rfl, h⟩ <;> rw [h] <;> rfl
  have hu : u.front.attention.onlyFeed f = true := honly
  have hdone : ∀ b, parseSettings bytes = .ok b → u.blockRefused f b = false →
      ∃ t, taken = .next t ∧ answered t .done 0 ∧ t.front.receivers = (u.handOver f b).front.receivers ∧
        t.front.timers = (u.handOver f b).front.timers ∧ t.front.reduce = (u.handOver f b).front.reduce := by
    intro b hb hfree
    rw [State.settingsRead_taken hb hfree] at htaken
    exact ⟨_, htaken, State.settle_handOver hu req b _ rfl⟩
  let x := u.front.updReceiver f fun r => { r with waiting := none }
  have hx : x.receivers[f] = { r with waiting := none } := upd_same ..
  have happly : ∀ b, parseSettings bytes = .ok b → u.blockRefused f b = false →
      ¬(r.enabled = true ∧ r.link = .locked) → ∃ t, taken = .next t ∧ answered t .done 0 ∧
        t.front.receivers = (x.applyBlock f b).receivers ∧ t.front.timers = (x.applyBlock f b).timers ∧
        t.front.reduce = (x.applyBlock f b).reduce := by
    intro b hb hfree hl
    have hover : (u.handOver f b).front = x.applyBlock f b := by
      rw [State.handOver_of_not_locked (s := u) b hl, State.applyBlock_front, State.onReceiver_front]
    rw [← hover]
    exact hdone b hb hfree
  have hcompared : ∀ n, (∃ m, (r.waiting = some (.enabling m) ∨ r.waiting = none ∧ r.active = some m) ∧ ¬differs n m) →
      u.blockRefused f (.enabling n) = false := by
    rintro n ⟨m, hm, hsame⟩
    rw [State.blockRefused_enabling, show u.front.receivers[f].compared = some m from Receiver.compared_eq hm,
      Bool.eq_false_iff.mpr (mt formatChanged_iff.mp hsame), Bool.and_false]
  refine ⟨?_, fun index hi => ?_, fun b hb hany hwhy => ?_, fun b hb he hl hwhy => ?_, fun hb hfree hl => ?_,
    fun n hb hfree hl hwhy => ?_, fun n m hb he hl ha hwait hsame => ?_⟩
  · have herr : exec (.readCompletion ⟨o.number, .error⟩) s = .next
        (((s.endRead.onFlags fun g => { g with linkFault := true }).endService).conclude f req .linkError 0).settle := by
      rw [execReadCompletion_of_outstanding ho, State.completeOutstanding_error hw]
      rcases hreq with ⟨rfl, h⟩ | ⟨rfl, h⟩ <;> rw [h] <;> rfl
    obtain ⟨hans, hrec, -⟩ := State.settle_conclude (s := (s.endRead.onFlags fun g => { g with linkFault := true }).endService)
      hu req .linkError 0
    exact ⟨_, herr, ⟨hans, fun g _ => by rw [hrec]; rfl⟩, hrec⟩
  · rw [State.settingsRead_error hi] at htaken
    obtain ⟨hans, hrec, -⟩ := State.settle_conclude hu req .badSetting index
    exact ⟨_, htaken, ⟨hans, fun g _ => by rw [hrec]; rfl⟩, hrec⟩
  · have hrefused : u.blockRefused f b = true := by
      rcases hwhy with rfl | ⟨n, m, rfl, hd, hm⟩
      · exact Bool.and_eq_true_iff.mpr ⟨hany, rfl⟩
      · rw [State.blockRefused_enabling, show u.front.receivers[f].compared = some m from Receiver.compared_eq hm]
        exact Bool.and_eq_true_iff.mpr ⟨hany, formatChanged_iff.mpr hd⟩
    rw [State.settingsRead_refused hb hrefused] at htaken
    obtain ⟨hans, hrec, -⟩ := State.settle_conclude hu req .refusedState 0
    exact ⟨_, htaken, ⟨hans, fun g _ => by rw [hrec]; rfl⟩, hrec⟩
  · have hfree : u.blockRefused f b = false := by
      rcases hwhy with hfree | ⟨n, m, rfl, hsame, hm⟩
      · exact State.blockRefused_of_free hfree b
      · exact hcompared n ⟨m, hm, hsame⟩
    obtain ⟨t, ht, ha, hrec, htim, hred⟩ := hdone b hb hfree
    rw [State.handOver_of_locked (s := u) b ⟨he, hl⟩] at hrec htim hred
    exact ⟨t, ht, ha, by rw [hrec]; exact upd_same .., htim, hred⟩
  · obtain ⟨t, ht, ha, hrec, htim, -⟩ := happly _ hb (State.blockRefused_of_free (s := u) hfree _) hl
    obtain ⟨h1, h2⟩ := Front.applyDisabling_feed f x
    refine ⟨t, ht, ha, by rw [htim]; exact h2, ?_⟩
    rw [hrec, h1, hx]
    rfl
  · obtain ⟨t, ht, ha, hrec, htim, hred⟩ := happly _ hb (State.blockRefused_of_free (s := u) hfree _) hl
    have hrestarts : x.receivers[f].restarts n = true := by
      rw [hx]
      rcases hwhy with he | ⟨m, hm, hd⟩
      · simp [Receiver.restarts, he]
      · simp [Receiver.restarts, hm, formatChanged_iff.mpr hd]
    obtain ⟨h1, h2⟩ := Front.applyEnabling_feed_of_restarts hrestarts
    refine ⟨t, ht, ha, by rw [htim]; exact h2, by rw [hred]; exact Front.applyEnabling_reduce f n x, ?_⟩
    have hlink : Receiver.enabledLink { r with waiting := none } =
        if (if r.enabled then r.link ≠ .dark else r.signal = true) then .seeking else .dark := by
      unfold Receiver.enabledLink
      cases r.enabled <;> cases r.link <;> simp
    rw [hrec, h1, hx, hlink]
    rfl
  · have hsame' : x.receivers[f].restarts n = false := by
      rw [hx, Receiver.restarts_of_enabled (r := { r with waiting := none }) he ha]
      exact Bool.eq_false_iff.mpr (mt formatChanged_iff.mp hsame)
    obtain ⟨t, ht, hans, hrec, htim, hred⟩ := happly _ hb (hcompared n ⟨m, .inr ⟨hwait, ha⟩, hsame⟩) fun h => hl h.2
    obtain ⟨h1, h2⟩ := Front.applyEnabling_feed_of_same hsame'
    refine ⟨t, ht, hans, ?_, by rw [htim]; exact h2, by rw [hred]; exact Front.applyEnabling_reduce f n x⟩
    rw [hrec, h1, hx, ← hwait]

end Sys2Proof.Machine
end


section
/-! Lines and the close of a frame: the bytes a stored line gets (R11 to R13), what the close makes of the slot (R15 to R17,
R57), and which changes of the engine leave every block waiting. -/

namespace Sys2Proof.Machine

/-! ## Changes that leave every block waiting -/

/-- What decides whether every block waits is the same in `e'` as in `e`. -/
structure Engine.SameWaits (e e' : Engine) : Prop where
  mover : e'.mover = e.mover
  reducer : e'.reducer = e.reducer
  writer : e'.writer = e.writer
  busy : e'.arbiter.busy = e.arbiter.busy
  refeeds : e'.takes.map (·.refeed) = e.takes.map (·.refeed)

theorem Engine.SameWaits.refl (e : Engine) : e.SameWaits e := ⟨rfl, rfl, rfl, rfl, rfl⟩

theorem Engine.SameWaits.trans {a b c : Engine} (h : a.SameWaits b) (k : b.SameWaits c) : a.SameWaits c :=
  ⟨k.mover.trans h.mover, k.reducer.trans h.reducer, k.writer.trans h.writer, k.busy.trans h.busy,
    k.refeeds.trans h.refeeds⟩

theorem Engine.SameWork.sameWaits {e e' : Engine} (h : e.SameWork e') : e.SameWaits e' :=
  ⟨h.mover, h.reducer, h.writer, h.busy, by rw [h.takes]⟩

theorem Engine.SameWaits.busyWaiting {e e' : Engine} (h : e.SameWaits e') (he : e.busyWaiting = true) :
    e'.busyWaiting = true := by
  have hall : ∀ l : List Take, (l.all fun t => t.refeed != some .evaluate) =
      (l.map (·.refeed)).all fun r => r != some .evaluate := fun l => by rw [List.all_map]; rfl
  simp only [Engine.busyWaiting, hall] at he ⊢
  rwa [h.mover, h.reducer, h.writer, h.busy, h.refeeds]

/-- A change of takes that leaves their checks alone leaves the blocks waiting. -/
theorem Engine.updTake_sameWaits (e : Engine) (t : Nat) {g : Take → Take} (hg : ∀ k, (g k).refeed = k.refeed) :
    e.SameWaits (e.updTake t g) := by
  refine ⟨rfl, rfl, rfl, rfl, ?_⟩
  rw [Engine.updTake_takes, List.map_map]
  refine List.map_congr_left fun k _ => ?_
  simp only [Function.comp]
  split
  · exact hg k
  · rfl

/-- With a quiet Attention Unit, a change that leaves a part at work waiting gives rise to no act. -/
theorem State.settle_of_sameWaits {s s' : State} (hq : s.front.attention.quiet = true) (hw : s.eng.busyWaiting = true)
    (ha : s'.front.attention = s.front.attention) (he : s.eng.SameWaits s'.eng) : s'.settle = s' :=
  State.settle_of_busyWaiting (by rw [ha]; exact hq) (he.busyWaiting hw)

/-- A part at rest stays at rest when the Attention Unit, the blocks' work and the Record Port stay. -/
theorem State.atRest_of_work {s s' : State} (h : s.atRest = true) (ha : s'.front.attention = s.front.attention)
    (hw : s.eng.SameWork s'.eng) (hp : s'.eng.port = s.eng.port) : s'.atRest = true := by
  have h : s.unitStep = none := by simpa [State.atRest] using h
  obtain ⟨h1, h2, h3, h4⟩ := s.unitStep_eq_none_iff.mp h
  have hport : s'.eng.grantPort s'.front = none ↔ s.eng.grantPort s.front = none := by
    unfold Engine.grantPort
    rw [hp]
    split <;> simp
  have hindex : s'.eng.grantIndex = none ↔ s.eng.grantIndex = none := by
    unfold Engine.grantIndex
    rw [hw.writer]
    split <;> simp
  have hpicture : s'.eng.grantPicture s'.front = none ↔ s.eng.grantPicture s.front = none := by
    unfold Engine.grantPicture
    rw [hw.mover, hw.reducer]
    split <;> simp
  have : s'.unitStep = none := by
    rw [State.unitStep_eq_none_iff]
    refine ⟨?_, (hw.blockStep _ _).mpr h2, ?_, ?_⟩
    · rw [State.serveStep_eq_none_iff, ha]; exact s.serveStep_eq_none_iff.mp h1
    · rw [State.refillStep_eq_none_iff, ha, hp]; exact s.refillStep_eq_none_iff.mp h3
    · unfold Engine.arbiterStep at h4 ⊢
      rw [hw.busy]
      split
      · rfl
      · rename_i hb
        rw [if_neg hb, Option.or_eq_none_iff, Option.or_eq_none_iff] at h4
        rw [Option.or_eq_none_iff, Option.or_eq_none_iff, hport, hindex, hpicture]
        exact h4
  simp [State.atRest, this]

/-- With the part at rest, a change of the open frames alone, beside the front's, gives rise to no act. -/
theorem State.settle_of_opened {s s' : State} (h : s.atRest = true) (ha : s'.front.attention = s.front.attention)
    (he : s'.eng = { s.eng with opened := s'.eng.opened }) : s'.settle = s' := by
  refine State.settle_of_atRest (State.atRest_of_work h ha ?_ ?_)
  · rw [he]; exact ⟨rfl, rfl, rfl, rfl, rfl, rfl, rfl, rfl⟩
  · rw [he]

/-! ## The bytes of a line (R13, section 11.7) -/

theorem leBytes_length (n v : Nat) : (leBytes n v).length = n := by
  induction n generalizing v with
  | zero => rfl
  | succ n ih => simp [leBytes, ih]

theorem packPair_length (p : PixelPair) : (packPair p).length = 8 := by
  simp [packPair, leBytes_length]

theorem packLine_length (l : List PixelPair) : (packLine l).length = 8 * l.length := by
  induction l with
  | nil => rfl
  | cons p l ih =>
    have : packLine (p :: l) = packPair p ++ packLine l := List.flatMap_cons
    rw [this, List.length_append, packPair_length, ih, List.length_cons]
    omega

/-- Pair `j` of a line stands in the line's bytes from 8 j on. -/
theorem packLine_pair (l : List PixelPair) {j : Nat} (h : j < l.length) :
    ((packLine l).drop (8 * j)).take 8 = packPair l[j] := by
  induction l generalizing j with
  | nil => exact absurd h (by simp)
  | cons p l ih =>
    have hcons : packLine (p :: l) = packPair p ++ packLine l := List.flatMap_cons
    rw [hcons]
    cases j with
    | zero => simp [packPair_length]
    | succ j =>
      have : 8 * (j + 1) = (packPair p).length + 8 * j := by rw [packPair_length]; omega
      rw [this, List.drop_length_add_append, List.getElem_cons_succ]
      exact ih (by simpa using h)

theorem fitLine_length (n : Nat) (pairs : List PixelPair) : (fitLine n pairs).length = n := by
  simp only [fitLine, List.length_append, List.length_replicate, List.length_take]
  omega

/-- Pair `j` of a stored line is the line's pair `j`, or its last pair behind its end. -/
theorem fitLine_getElem {n j : Nat} (pairs : List PixelPair) (h : j < (fitLine n pairs).length) :
    (fitLine n pairs)[j] = pairs.getD j (pairs.getLast?.getD 0) := by
  have hj : j < n := by rwa [fitLine_length] at h
  simp only [fitLine]
  by_cases hp : j < pairs.length
  · rw [List.getElem_append_left (by rw [List.length_take]; omega), List.getElem_take, List.getD_eq_getElem _ _ hp]
  · rw [List.getElem_append_right (by rw [List.length_take]; omega), List.getElem_replicate,
      List.take_of_length_le (by omega), List.getD_eq_default _ _ (by omega)]

theorem Dram.readRange_writeRange (m : Dram) (a : Nat) (bytes : List Byte) {k n : Nat} (h : k + n ≤ bytes.length) :
    (m.writeRange a bytes).readRange (a + k) n = (bytes.drop k).take n := by
  refine List.ext_getElem (by simp [Dram.readRange]; omega) fun i hi _ => ?_
  rw [Dram.readRange_length] at hi
  simp only [Dram.readRange, List.getElem_map, List.getElem_range, List.getElem_take, List.getElem_drop, Nat.add_assoc]
  exact Dram.read_writeRange_inside m a bytes (by omega)

/-- The bytes of a stored line in card DRAM, and what stays outside it. -/
theorem Dram.storeLine_reads (m : Dram) (a : Nat) {w : Nat} (hw : w % 2 = 0) (pairs : List PixelPair) :
    (∀ j, j < w / 2 → (m.writeRange a (packLine (fitLine (w / 2) pairs))).readRange (a + 8 * j) 8 =
      packPair (pairs.getD j (pairs.getLast?.getD 0))) ∧
    (∀ b, b < a ∨ a + 4 * w ≤ b → (m.writeRange a (packLine (fitLine (w / 2) pairs))).read b = m.read b) := by
  have hlen : (packLine (fitLine (w / 2) pairs)).length = 4 * w := by
    rw [packLine_length, fitLine_length]; omega
  refine ⟨fun j hj => ?_, fun b hb => ?_⟩
  · have hj' : j < (fitLine (w / 2) pairs).length := by rwa [fitLine_length]
    rw [Dram.readRange_writeRange _ _ _ (by omega), packLine_pair _ hj', fitLine_getElem]
  · exact Dram.read_writeRange_outside _ _ _ (by rwa [hlen])

/-! ## The close of a frame -/

theorem insertNat_ne_nil (y : Nat) (l : List Nat) : insertNat y l ≠ [] := by simp [insertNat]

/-- The slot of a frame that closes with lines (R57). -/
def Slot.closed (padded : Bool) (concealed : Nat) (browseOn : Bool) (s : Slot) : Slot :=
  { s with
    state := .ready
    padded := padded
    concealed := 0 < concealed
    concealedCount := concealed
    browse := if browseOn then s.browse else .decided .disabled }

/-- The close of a frame that does not join the waiting frames changes its slot and its feed's open frame alone. -/
theorem Engine.frameReady_of_not_joins {x : Front} {f : FeedId} {i : SlotId} {e : Engine} {slot : Slot} {k : Take}
    (padded : Bool) (concealed : Nat) (hs : e.slots[i] = some slot) (hk : e.take? slot.take = some k)
    (hj : ¬(k.browseOn = true ∧ slot.browse = .undecided)) :
    e.frameReady x f i padded concealed = { e with
      opened := upd e.opened f fun _ => none
      slots := upd e.slots i fun _ => some (slot.closed padded concealed k.browseOn) } := by
  have hon : ((e.slots[i].bind fun s => e.take? s.take).map (·.browseOn)).getD false = k.browseOn := by
    rw [hs, Option.bind_some, hk]; rfl
  have hjoins : (k.browseOn && e.slots[i].any fun s => s.browse == .undecided) = false := by
    rw [hs]
    simpa using hj
  unfold Engine.frameReady
  dsimp only
  rw [show (((e.slots[i].bind fun s => Engine.take? { e with opened := upd e.opened f fun _ => none } s.take).map
    (·.browseOn)).getD false) = k.browseOn from hon, hjoins, if_neg (by simp)]
  simp only [Engine.updSlot, upd, hs, Option.map_some]
  rfl

/-- The close of a frame without lines frees its slot, and takes its placeholder and its position back (R17). -/
theorem Engine.frameEmpty_eq {f : FeedId} {i : SlotId} {e : Engine} {slot : Slot} (hs : e.slots[i] = some slot) :
    e.frameEmpty f i = (Engine.updTake { e with opened := upd e.opened f fun _ => none } slot.take fun t =>
      { t with queue := t.queue.filter fun r => !r.body.inSlot i, position := t.position - 1 }).freeSlot i := by
  unfold Engine.frameEmpty
  dsimp only
  rw [hs]

theorem Engine.frameEmpty_sameWaits {f : FeedId} {i : SlotId} {e : Engine} {slot : Slot} (hs : e.slots[i] = some slot) :
    e.SameWaits (e.frameEmpty f i) := by
  rw [Engine.frameEmpty_eq hs]
  have h := Engine.updTake_sameWaits { e with opened := upd e.opened f fun _ => none } slot.take (g := fun t =>
    { t with queue := t.queue.filter fun r => !r.body.inSlot i, position := t.position - 1 }) fun _ => rfl
  exact ⟨h.mover, h.reducer, h.writer, h.busy, h.refeeds⟩

/-- The close of the open frame with lines received. -/
theorem State.closeFrame_of_received {f : FeedId} {s : State} {o : OpenFrame} {n : Settings}
    (ho : s.eng.opened[f] = some o) (hr : o.received ≠ []) (hn : s.front.settings f = n) :
    s.closeFrame f = (s.onFront fun x => { x with dram := x.dram.conceal o.slot n.w n.h o.received }).act fun x e =>
      e.frameReady x f o.slot o.padded (missingLines n.h o.received).length := by
  unfold State.closeFrame
  rw [ho]
  dsimp only
  cases h : o.received with
  | nil => exact absurd h hr
  | cons y ys => rw [hn]

/-- The close of the open frame with lines received, when the frame does not join the waiting frames. -/
theorem State.closeFrame_of_not_joins {f : FeedId} {s : State} {o : OpenFrame} {n : Settings} {slot : Slot} {k : Take}
    (ho : s.eng.opened[f] = some o) (hr : o.received ≠ []) (hn : s.front.settings f = n)
    (hs : s.eng.slots[o.slot] = some slot) (hk : s.eng.take? slot.take = some k)
    (hj : ¬(k.browseOn = true ∧ slot.browse = .undecided)) : s.closeFrame f = { s with
      front := { s.front with dram := s.front.dram.conceal o.slot n.w n.h o.received }
      eng := { s.eng with
        opened := upd s.eng.opened f fun _ => none
        slots := upd s.eng.slots o.slot fun _ =>
          some (slot.closed o.padded (missingLines n.h o.received).length k.browseOn) } } := by
  rw [State.closeFrame_of_received ho hr hn]
  unfold State.act
  dsimp only
  rw [show (s.onFront fun x => { x with dram := x.dram.conceal o.slot n.w n.h o.received }).eng = s.eng from rfl,
    Engine.frameReady_of_not_joins _ _ hs hk hj]
  rfl

theorem State.closeFrame_of_empty {f : FeedId} {s : State} {o : OpenFrame} (ho : s.eng.opened[f] = some o)
    (hr : o.received = []) :
    s.closeFrame f = (s.onReceiver f Receiver.countEmpty).act fun _ e => e.frameEmpty f o.slot := by
  unfold State.closeFrame
  rw [ho]
  dsimp only
  rw [hr]

/-! ## Line Ends -/

/-- The line in progress of feed `f` is over. -/
def State.dropLine (f : FeedId) (s : State) : State := s.onReceiver f fun r => { r with line := .empty }

theorem execLineEnd_eq {f : FeedId} {s : State} (he : s.front.receivers[f].enabled = true)
    (hs : s.front.receivers[f].signal = true) (hh : s.front.receivers[f].inHeader = false) :
    exec (.lineEnd f) s = .next (s.endLine f).settle := by
  show Host.Outcome.next (s.symbol f _).settle = _
  rw [State.symbol_of_listens he hs, State.cutHeader_of_none hh]

theorem State.endLine_of_marked {f : FeedId} {s : State} {n : Settings} (hn : s.front.receivers[f].active = some n)
    (hf : n.framing = .marked) : s.endLine f = (s.dropLine f).endMarked f s.front.receivers[f].line := by
  unfold State.endLine
  dsimp only
  rw [State.receiver_eq, Receiver.settings_of_active hn, hf]
  rfl

theorem State.endLine_of_counted {f : FeedId} {s : State} {n : Settings} (hn : s.front.receivers[f].active = some n)
    (hf : n.framing = .counted) : s.endLine f = (s.dropLine f).endCounted f s.front.receivers[f].line := by
  unfold State.endLine
  dsimp only
  rw [State.receiver_eq, Receiver.settings_of_active hn, hf]
  rfl

theorem State.dropLine_active (f : FeedId) (s : State) :
    (s.dropLine f).front.receivers[f].active = s.front.receivers[f].active := by
  unfold State.dropLine
  rw [State.onReceiver_front, Front.updReceiver_receivers, upd_same]

theorem State.dropLine_settings {f : FeedId} {s : State} {n : Settings} (hn : s.front.receivers[f].active = some n) :
    (s.dropLine f).front.settings f = n :=
  Front.settings_of_active ((State.dropLine_active f s).trans hn)

/-- The open frame with line `y` stored from `pairs`, under settings `n` (R11, R13). -/
def OpenFrame.store (n : Settings) (y : Nat) (pairs : List PixelPair) (o : OpenFrame) : OpenFrame :=
  { o with received := insertNat y o.received, padded := o.padded || pairs.length < n.w / 2 }

/-- A stored line changes card DRAM and the feed's open frame alone. -/
theorem State.storeLine_eq {f : FeedId} {s : State} {n : Settings} (hn : s.front.settings f = n) (o : OpenFrame) (y : Nat)
    (pairs : List PixelPair) : s.storeLine f o y pairs = { s with
      front := { s.front with
        dram := s.front.dram.writeRange (lineAddr o.slot n.w y) (packLine (fitLine (n.w / 2) pairs)) }
      eng := { s.eng with opened := upd s.eng.opened f fun _ => some (o.store n y pairs) } } := by
  unfold State.storeLine
  rw [hn]
  rfl

theorem State.closeComplete_eq {f : FeedId} {s : State} {n : Settings} {o : OpenFrame} (hn : s.front.settings f = n)
    (ho : s.eng.opened[f] = some o) :
    s.closeComplete f = if missingLines n.h o.received = [] then s.closeFrame f else s := by
  unfold State.closeComplete
  rw [ho]
  dsimp only
  simp only [hn, List.isEmpty_iff]

/-- The Line End of a numbered line with at least one pair, in an open frame. -/
theorem State.endMarked_of_pairs {f : FeedId} {s : State} {n : Settings} {o : OpenFrame} {y : Nat}
    {pairs : List PixelPair} (hn : s.front.settings f = n) (ho : s.eng.opened[f] = some o) (hp : pairs ≠ []) :
    s.endMarked f (.numbered y pairs) = if missingLines n.h (insertNat y o.received) = [] then
      (s.storeLine f o y pairs).closeFrame f else s.storeLine f o y pairs := by
  cases pairs with
  | nil => exact absurd rfl hp
  | cons p ps =>
    have hst := State.storeLine_eq hn o y (p :: ps)
    unfold State.endMarked
    rw [ho]
    dsimp only
    refine (State.closeComplete_eq (n := n) (o := o.store n y (p :: ps)) ?_ ?_).trans rfl
    · rw [hst]; exact hn
    · rw [hst]; exact upd_same ..

/-- The Line End of an active line with at least one pair behind its LeftSkip pixels. -/
theorem State.endCounted_of_pairs {f : FeedId} {s : State} {n : Settings} {o : OpenFrame} {line : LineBuffer}
    (hn : s.front.settings f = n) (ho : s.eng.opened[f] = some o) (hskip : o.topSkip ≤ o.lines)
    (hp : line.counts.drop (o.leftSkip / 2) ≠ []) :
    let stored := s.storeLine f { o with lines := o.lines + 1 } (o.lines - o.topSkip) (line.counts.drop (o.leftSkip / 2))
    s.endCounted f line = if n.h ≤ o.lines - o.topSkip + 1 then stored.closeFrame f else stored := by
  intro stored
  have hset : stored.front.settings f = n := hn
  unfold State.endCounted
  rw [ho]
  dsimp only
  rw [if_neg (by omega)]
  split
  · rename_i h; exact absurd h hp
  · rename_i p ps h
    rw [← h, show s.storeLine f _ _ _ = stored from rfl, hset]

/-- A Line End in an open frame that stores a line: the frame with the line stored, closed when the line completes it. -/
theorem State.endLine_of_pairs {f : FeedId} {y : Nat} {pairs : List PixelPair} {o : OpenFrame} {n : Settings} {s : State}
    (hn : s.front.receivers[f].active = some n) (hp : pairs ≠ []) (ho : s.eng.opened[f] = some o)
    (hline : n.framing = .marked ∧ s.front.receivers[f].line = .numbered y pairs ∨
      n.framing = .counted ∧ o.topSkip ≤ o.lines ∧ y = o.lines - o.topSkip ∧
        pairs = s.front.receivers[f].line.counts.drop (o.leftSkip / 2)) :
    let stored := (s.dropLine f).storeLine f
      { o with lines := if n.framing = .counted then o.lines + 1 else o.lines } y pairs
    let completes := (n.framing = .marked ∧ missingLines n.h (insertNat y o.received) = []) ∨
      (n.framing = .counted ∧ n.h ≤ y + 1)
    (¬completes → s.endLine f = stored) ∧ (completes → s.endLine f = stored.closeFrame f) := by
  rcases hline with ⟨hf, hl⟩ | ⟨hf, hskip, rfl, rfl⟩
  · intro stored completes
    have hc : completes ↔ missingLines n.h (insertNat y o.received) = [] := by simp [completes, hf]
    have hstored : stored = (s.dropLine f).storeLine f o y pairs := by simp only [stored, hf]; rfl
    rw [hc, State.endLine_of_marked hn hf, hl,
      State.endMarked_of_pairs (State.dropLine_settings hn) (s := s.dropLine f) ho hp, hstored]
    exact ⟨fun h => if_neg h, fun h => if_pos h⟩
  · intro stored completes
    have hc : completes ↔ n.h ≤ o.lines - o.topSkip + 1 := by simp [completes, hf]
    have hstored : stored = (s.dropLine f).storeLine f { o with lines := o.lines + 1 } (o.lines - o.topSkip)
        (s.front.receivers[f].line.counts.drop (o.leftSkip / 2)) := by simp only [stored, hf]; rfl
    rw [hc, State.endLine_of_counted hn hf,
      State.endCounted_of_pairs (s := s.dropLine f) (State.dropLine_settings hn) ho hskip hp, hstored]
    exact ⟨fun h => if_neg h, fun h => if_pos h⟩

/-- Settles O26. -/
theorem lineEndStoresLine : Obligations.LineEndStoresLine := by
  intro f y pairs o n s he hs hh hn hw hp ho hline received padded completes stored
  obtain ⟨hopen, hclose⟩ := State.endLine_of_pairs hn hp ho hline
  have hstored : stored (s.front.dram.writeRange (lineAddr o.slot n.w y) (packLine (fitLine (n.w / 2) pairs))) :=
    Dram.storeLine_reads s.front.dram _ hw pairs
  have hset : (s.dropLine f).front.settings f = n := State.dropLine_settings hn
  let st := (s.dropLine f).storeLine f { o with lines := if n.framing = .counted then o.lines + 1 else o.lines } y pairs
  have hst : st = _ := State.storeLine_eq hset _ y pairs
  refine ⟨fun hr hnot => ?_, fun hcomp slot k hslot hk hb hq hwait => ?_⟩
  · have hsettle : st.settle = st := State.settle_of_opened hr (by rw [hst]; rfl) (by rw [hst]; rfl)
    refine ⟨st, by rw [execLineEnd_eq he hs hh, hopen hnot, hsettle], ?_⟩
    rw [hst]
    exact ⟨hstored, rfl, rfl, rfl⟩
  · have ho' : st.eng.opened[f] = some (OpenFrame.store n y pairs
        { o with lines := if n.framing = .counted then o.lines + 1 else o.lines }) := by rw [hst]; exact upd_same ..
    have hcl := State.closeFrame_of_not_joins ho' (insertNat_ne_nil y o.received) (n := n) (slot := slot) (k := k)
      (by rw [hst]; exact hset) (by rw [hst]; exact hslot) (by rw [hst]; exact hk) (by simp [hb])
    have hsettle : (st.closeFrame f).settle = st.closeFrame f :=
      State.settle_of_sameWaits hq hwait (by rw [hcl]; rfl) (by rw [hcl, hst]; exact ⟨rfl, rfl, rfl, rfl, rfl⟩)
    refine ⟨st.closeFrame f, st.front.dram, by rw [execLineEnd_eq he hs hh, hclose hcomp, hsettle], ?_, ?_⟩
    · rw [hst]; exact hstored
    · rw [hcl]
      refine ⟨rfl, upd_same .., ?_, fun i hi => ?_, ?_, ?_, ?_⟩
      · refine (upd_same ..).trans ?_
        rw [hb]; rfl
      · refine (upd_other _ hi _).trans ?_
        rw [hst]; rfl
      · rw [hst]; rfl
      · rw [hst]; rfl
      · rw [hst]; rfl

end Sys2Proof.Machine
end


section
/-! Line Ends that store nothing (R11, R12, R15, R17). -/

namespace Sys2Proof.Machine

/-- The open frame of feed `f` is `o` with one line more ended. -/
def State.countLine (f : FeedId) (o : OpenFrame) (s : State) : State :=
  s.act fun _ e => { e with opened := upd e.opened f fun _ => some { o with lines := o.lines + 1 } }

theorem State.endMarked_of_no_pairs {f : FeedId} {line : LineBuffer} (s : State)
    (h : ∀ y p ps, line ≠ .numbered y (p :: ps)) : s.endMarked f line = s := by
  unfold State.endMarked
  split
  · exact absurd rfl (h _ _ _)
  · rfl

theorem State.endLine_of_no_frame {f : FeedId} {s : State} (ho : s.eng.opened[f] = none) :
    s.endLine f = s.dropLine f := by
  have hd : (s.dropLine f).eng.opened[f] = none := ho
  unfold State.endLine
  dsimp only
  split
  · show (s.dropLine f).endMarked f _ = _
    unfold State.endMarked
    rw [hd]
    split
    · rename_i h; cases h
    · rfl
  · show (s.dropLine f).endCounted f _ = _
    unfold State.endCounted
    rw [hd]

theorem State.endLine_of_marked_no_pairs {f : FeedId} {s : State} {n : Settings}
    (hn : s.front.receivers[f].active = some n) (hf : n.framing = .marked)
    (h : ∀ y p ps, s.front.receivers[f].line ≠ .numbered y (p :: ps)) : s.endLine f = s.dropLine f := by
  rw [State.endLine_of_marked hn hf, State.endMarked_of_no_pairs _ h]

theorem State.endCounted_of_skip {f : FeedId} {line : LineBuffer} {s : State} {o : OpenFrame}
    (ho : s.eng.opened[f] = some o) (h : o.lines < o.topSkip) : s.endCounted f line = s.countLine f o := by
  unfold State.endCounted
  rw [ho]
  exact if_pos h

/-- An active line with no pair behind its LeftSkip pixels is counted, and the last one closes the frame. -/
theorem State.endCounted_of_no_pairs {f : FeedId} {line : LineBuffer} {s : State} {o : OpenFrame} {n : Settings}
    (hn : s.front.settings f = n) (ho : s.eng.opened[f] = some o) (h : o.topSkip ≤ o.lines)
    (hp : line.counts.length ≤ o.leftSkip / 2) :
    s.endCounted f line =
      if n.h ≤ o.lines - o.topSkip + 1 then (s.countLine f o).closeFrame f else s.countLine f o := by
  have hset : (s.countLine f o).front.settings f = n := hn
  have hdrop : line.counts.drop (o.leftSkip / 2) = [] := List.drop_eq_nil_of_le hp
  unfold State.endCounted
  rw [ho]
  dsimp only
  rw [if_neg (by omega), hdrop]
  show (if ((s.countLine f o).front.settings f).h ≤ _ then _ else _) = _
  rw [hset]
  rfl

/-- The close of a frame whose take has browse disabled: the slot, card DRAM and the open frame. -/
theorem State.closeFrame_settle_quiet {f : FeedId} {s : State} {o : OpenFrame} {n : Settings} {slot : Slot} {k : Take}
    (hn : s.front.receivers[f].active = some n) (ho : s.eng.opened[f] = some o) (hs : s.eng.slots[o.slot] = some slot)
    (hk : s.eng.take? slot.take = some k) (hb : k.browseOn = false) (hq : s.front.attention.quiet = true)
    (hw : s.eng.busyWaiting = true) :
    (s.closeFrame f).settle = s.closeFrame f ∧ (s.closeFrame f).eng.opened[f] = none ∧
      (o.received ≠ [] → ((s.closeFrame f).eng.slots[o.slot]).map (·.state) = some .ready ∧
        (s.closeFrame f).front.dram = s.front.dram.conceal o.slot n.w n.h o.received) ∧
      (o.received = [] → (s.closeFrame f).eng.slots[o.slot] = none ∧ (s.closeFrame f).front.dram = s.front.dram) := by
  by_cases hr : o.received = []
  · have hcl := State.closeFrame_of_empty ho hr
    have heng : (s.closeFrame f).eng = s.eng.frameEmpty f o.slot := by rw [hcl]; rfl
    refine ⟨State.settle_of_sameWaits hq hw (by rw [hcl]; rfl) (by rw [heng]; exact Engine.frameEmpty_sameWaits hs), ?_,
      fun h => absurd hr h, fun _ => ⟨?_, by rw [hcl]; rfl⟩⟩
    · rw [heng, Engine.frameEmpty_eq hs]
      exact upd_same ..
    · rw [heng, Engine.frameEmpty_eq hs]
      exact upd_same ..
  · have hcl := State.closeFrame_of_not_joins ho hr (Front.settings_of_active hn) hs hk (by simp [hb])
    refine ⟨State.settle_of_sameWaits hq hw (by rw [hcl]) (by rw [hcl]; exact ⟨rfl, rfl, rfl, rfl, rfl⟩), ?_,
      fun _ => ⟨?_, by rw [hcl]⟩, fun h => absurd h hr⟩
    · rw [hcl]; exact upd_same ..
    · rw [hcl]
      exact congrArg (Option.map Slot.state) (upd_same ..)

/-- Settles O27. -/
theorem lineEndStoresNothing : Obligations.LineEndStoresNothing := by
  intro f n s he hs hh hn
  have hset : (s.dropLine f).front.settings f = n := State.dropLine_settings hn
  refine ⟨fun hr hnone => ?_, fun o hr hf ho hcase => ?_, fun o slot k hf ho hskip hp hlast hslot hk hb hq hw => ?_⟩
  · have hend : s.endLine f = s.dropLine f := by
      rcases hnone with ho | ⟨hf, hl⟩
      · exact State.endLine_of_no_frame ho
      · exact State.endLine_of_marked_no_pairs hn hf hl
    rw [execLineEnd_eq he hs hh, hend]
    exact congrArg _ (State.settle_onReceiver hr f _)
  · have hend : s.endLine f = (s.dropLine f).countLine f o := by
      rw [State.endLine_of_counted hn hf]
      rcases Nat.lt_or_ge o.lines o.topSkip with h | h
      · exact State.endCounted_of_skip ho h
      · obtain ⟨hp, hlast⟩ := hcase.resolve_left (by omega)
        rw [State.endCounted_of_no_pairs (s := s.dropLine f) hset ho h hp, if_neg (by omega)]
    rw [execLineEnd_eq he hs hh, hend]
    exact congrArg _ (State.settle_of_opened hr rfl rfl)
  · have hend : s.endLine f = ((s.dropLine f).countLine f o).closeFrame f := by
      rw [State.endLine_of_counted hn hf, State.endCounted_of_no_pairs (s := s.dropLine f) hset ho hskip hp,
        if_pos hlast]
    obtain ⟨hsettle, hopen, hready, hempty⟩ := State.closeFrame_settle_quiet
      (s := (s.dropLine f).countLine f o) ((State.dropLine_active f s).trans hn) (upd_same ..) hslot hk hb hq hw
    exact ⟨_, by rw [execLineEnd_eq he hs hh, hend, hsettle], hopen, hready, hempty⟩

end Sys2Proof.Machine
end


section
/-! Accepted headers: the capture and the placement every header takes, and the headers that no take gets: one of another
format, and one on a SEEKING link (R4, R5, R28, R29, R43, R44). -/

namespace Sys2Proof.Machine

/-! ## Asking -/

/-- `e'` differs from `e` in the write list and the notices alone. -/
def Engine.AsksOnly (e e' : Engine) : Prop :=
  e' = { e with port := { e.port with writes := e'.port.writes }, notices := e'.notices }

theorem Engine.AsksOnly.refl (e : Engine) : e.AsksOnly e := rfl

theorem Engine.AsksOnly.trans {a b c : Engine} (h : a.AsksOnly b) (k : b.AsksOnly c) : a.AsksOnly c := by
  unfold Engine.AsksOnly at *
  rw [k, h]

theorem Engine.ask_asksOnly (e : Engine) (w : WriteRequest) : e.AsksOnly (e.ask w) := by
  unfold Engine.AsksOnly
  rw [Engine.ask_eq]

theorem Engine.setCauses_asksOnly (x : Front) (f : FeedId) (c : BitVec 9) (e : Engine) :
    e.AsksOnly (e.setCauses x f c) := by
  unfold Engine.AsksOnly
  rw [Engine.setCauses_eq]

theorem Engine.AsksOnly.sameWork {e e' : Engine} (h : e.AsksOnly e') : e.SameWork e' := by
  rw [h]
  exact ⟨rfl, rfl, rfl, rfl, rfl, rfl, rfl, rfl⟩

theorem Engine.AsksOnly.reads {e e' : Engine} (h : e.AsksOnly e') : e'.port.reads = e.port.reads := by rw [h]

theorem Engine.AsksOnly.opened {e e' : Engine} (h : e.AsksOnly e') : e'.opened = e.opened := by rw [h]

theorem Engine.SameWork.liveTake {e e' : Engine} (h : e.SameWork e') (f : FeedId) : e'.liveTake f = e.liveTake f := by
  unfold Engine.liveTake Engine.take?
  rw [h.places, h.takes]

theorem Engine.SameWork.recordingTake {e e' : Engine} (h : e.SameWork e') (f : FeedId) :
    e'.recordingTake f = e.recordingTake f := by
  unfold Engine.recordingTake
  rw [h.liveTake]

theorem State.sync_asksOnly (f : FeedId) (s : State) : s.eng.AsksOnly (s.sync f).eng :=
  Engine.setCauses_asksOnly ..

theorem State.capture_asksOnly (f : FeedId) (s : State) : s.eng.AsksOnly (s.capture f).eng := by
  unfold State.capture
  dsimp only
  split
  · exact State.sync_asksOnly f _
  · exact .trans (Engine.ask_asksOnly s.eng (.period f)) (State.sync_asksOnly f _)

/-! ## Capture and placement -/

/-- The part once the capture of an accepted header is taken and its frame placed (R28, R43, R44). -/
def State.captured (f : FeedId) (h : HeaderFields) (s : State) : State := (s.capture f).expectNext f (s.place f h)

theorem State.captured_front (f : FeedId) (h : HeaderFields) (s : State) : (s.captured f h).front =
    (s.front.updTimer f (FeedTimer.capture (s.front.settings f) s.front.refCount)).updReceiver f fun r =>
      { r with expected := some ((s.front.settings f).rate.nextDay (s.place f h).tc.day) } := by
  have hset : (s.capture f).front.settings f = s.front.settings f := by rw [State.capture_front]; rfl
  unfold State.captured State.expectNext
  rw [State.onReceiver_front, hset, State.capture_front]

theorem State.captured_receiver (f : FeedId) (h : HeaderFields) (s : State) : (s.captured f h).front.receivers[f] =
    { s.front.receivers[f] with
      expected := some ((s.front.settings f).rate.nextDay (s.place f h).tc.day) } := by
  rw [State.captured_front, Front.updReceiver_receivers, upd_same, Front.updTimer_receivers]

theorem State.captured_timer (f : FeedId) (h : HeaderFields) (s : State) : (s.captured f h).front.timers[f] =
    FeedTimer.capture (s.front.settings f) s.front.refCount s.front.timers[f] := by
  rw [State.captured_front, Front.updReceiver_timers, Front.updTimer_timers, upd_same]

theorem State.captured_attention (f : FeedId) (h : HeaderFields) (s : State) :
    (s.captured f h).front.attention = s.front.attention := by rw [State.captured_front]; rfl

theorem State.captured_settings (f : FeedId) (h : HeaderFields) (s : State) :
    (s.captured f h).front.settings f = s.front.settings f := by
  unfold Front.settings
  rw [State.captured_receiver]
  rfl

theorem State.captured_asksOnly (f : FeedId) (h : HeaderFields) (s : State) : s.eng.AsksOnly (s.captured f h).eng :=
  State.capture_asksOnly f s

/-- An accepted header: pending settings, then the capture, the placement and the judgement (R4). -/
theorem State.acceptHeader_eq (f : FeedId) (h : HeaderFields) (s : State) : s.acceptHeader f h =
    let a := (s.onReceiver f fun r => { r with inHeader := false }).applyPending f
    if a.front.receivers[f].enabled then (a.captured f h).judgeHeader f h (a.place f h) else a := by
  have hplace : ∀ a : State, (a.capture f).place f h = a.place f h := by
    intro a
    unfold State.place
    rw [State.receiver_eq, State.capture_front]
    rfl
  unfold State.acceptHeader State.captured
  dsimp only
  rw [State.receiver_eq, hplace]

/-- FRAME_HEADER accepted while no settings wait. -/
theorem execFrameHeader_of_none {f : FeedId} {chars : List Byte} {s : State} {n : Settings}
    (he : s.front.receivers[f].enabled = true) (hs : s.front.receivers[f].signal = true)
    (hh : s.front.receivers[f].inHeader = true) (hw : s.front.receivers[f].waiting = none)
    (hn : s.front.receivers[f].active = some n) (hc : chars.length = 12) (hg : headerGood chars = true) :
    ∃ a : State, a.front = s.front.updReceiver f (fun r => { r with inHeader := false }) ∧ a.eng = s.eng ∧
      a.front.settings f = n ∧
      a.front.receivers[f] = { s.front.receivers[f] with inHeader := false } ∧
      exec (.frameHeader f chars) s =
        .next ((a.captured f (parseHeader chars)).judgeHeader f (parseHeader chars)
          (a.place f (parseHeader chars))).settle := by
  let a := s.onReceiver f fun r => { r with inHeader := false }
  have hr : a.front.receivers[f] = { s.front.receivers[f] with inHeader := false } := by
    rw [State.onReceiver_front, Front.updReceiver_receivers, upd_same]
  refine ⟨a, rfl, rfl, Front.settings_of_active (by rw [hr]; exact hn), hr, ?_⟩
  rw [execFrameHeader_of_inHeader he hs hh hc, if_pos hg, State.acceptHeader_eq,
    State.applyPending_of_none (s := a) (by rw [hr]; exact hw)]
  dsimp only
  rw [if_pos (by rw [hr]; exact he)]

theorem HeaderFields.agrees_iff (chars : List Byte) (n : Settings) : (parseHeader chars).agrees n = true ↔
    parseRate (fieldAt chars 0 1) = some n.rate ∧ fieldAt chars 2 2 = n.w ∧ fieldAt chars 4 2 = n.h := by
  simp [HeaderFields.agrees, parseHeader, and_assoc]

/-- The interval to the capture before is judged at the next header (R29). -/
theorem FeedTimer.intervalGood_capture (n : Settings) (c : Count) (t : FeedTimer) : (t.capture n c).intervalGood n =
    t.history.getLast?.any fun p => inTolerance n.rate n.tolerance (c - p).toNat := by
  unfold FeedTimer.intervalGood
  rw [FeedTimer.capture_history, pushCapture, List.reverse_drop, List.getLast?_eq_head?_reverse, List.reverse_append,
    List.reverse_singleton, List.singleton_append]
  cases hl : t.history.reverse with
  | nil =>
    have hlen : t.history.length = 0 := by rw [← List.length_reverse, hl]; rfl
    simp [hlen]
  | cons p ps =>
    have hlen : t.history.length = ps.length + 1 := by rw [← List.length_reverse, hl]; rfl
    obtain ⟨k, hk⟩ : ∃ k, (t.history ++ [c]).length - (t.history.length + 1 - 9) = k + 2 := by
      refine ⟨(t.history ++ [c]).length - (t.history.length + 1 - 9) - 2, ?_⟩
      simp only [List.length_append, hlen, List.length_singleton]
      omega
    rw [hk]
    rfl

/-! ## The judgement of a header -/

theorem State.judgeHeader_of_mismatch {f : FeedId} {h : HeaderFields} {s : State} (p : Placed)
    (ha : h.agrees (s.front.settings f) = false) : s.judgeHeader f h p = s.mismatch f := by
  unfold State.judgeHeader
  dsimp only
  rw [ha]
  rfl

theorem State.judgeHeader_of_locked {f : FeedId} {h : HeaderFields} {s : State} (p : Placed)
    (ha : h.agrees (s.front.settings f) = true) (hl : s.front.receivers[f].link = .locked) :
    s.judgeHeader f h p = s.admitFrame f p := by
  unfold State.judgeHeader
  dsimp only
  rw [ha, State.receiver_eq, hl]
  rfl

theorem State.judgeHeader_of_seeking {f : FeedId} {h : HeaderFields} {s : State} (p : Placed)
    (ha : h.agrees (s.front.settings f) = true) (hl : s.front.receivers[f].link = .seeking) :
    s.judgeHeader f h p =
      if s.front.receivers[f].candidate = true ∧ s.front.timers[f].intervalGood (s.front.settings f) = true then
        (s.lock f).admitFrame f p
      else s.onReceiver f fun r => { r with candidate := true } := by
  unfold State.judgeHeader
  dsimp only
  rw [ha, State.receiver_eq, hl]
  rfl

/-- Settles O20. -/
theorem frameHeaderMismatchResult : Obligations.FrameHeaderMismatchResult := by
  intro f chars n s he hs hh hw hn hc hg hdiff hq
  obtain ⟨a, hfront, heng, hset, hrec, hexec⟩ := execFrameHeader_of_none he hs hh hw hn hc hg
  let b := a.captured f (parseHeader chars)
  have hb : s.eng.AsksOnly b.eng := heng ▸ State.captured_asksOnly f _ a
  have hagrees : (parseHeader chars).agrees (b.front.settings f) = false := by
    rw [State.captured_settings, hset, Bool.eq_false_iff, Ne, HeaderFields.agrees_iff]
    tauto
  have hatt : (b.mismatch f).front.attention = s.front.attention := by
    rw [State.mismatch_eq, State.onReceiver_front, Front.updReceiver_attention, State.captured_attention, hfront]
    rfl
  rw [State.judgeHeader_of_mismatch _ hagrees] at hexec
  refine ⟨_, hexec, ?_, fun hwait => ?_⟩
  · have hcount : b.recording f = (s.eng.recordingTake f).isSome := by
      unfold State.recording; rw [hb.sameWork.recordingTake]
    rw [State.settle_front_of_quiet (by rw [hatt]; exact hq), State.mismatch_eq, State.onReceiver_front,
      Front.updReceiver_receivers, upd_same, hcount, State.captured_receiver, hrec]
    have hcand : (if s.front.receivers[f].link = .seeking then false else s.front.receivers[f].candidate) =
        (s.front.receivers[f].candidate && s.front.receivers[f].link != .seeking) := by
      cases s.front.receivers[f].link <;> simp
    simp only [Receiver.mismatch, hcand]
  · have hsettle : (b.mismatch f).settle = b.mismatch f := State.settle_of_sameWaits hq hwait hatt hb.sameWork.sameWaits
    rw [hsettle]
    exact ⟨hb.sameWork.takes, hb.sameWork.places, hb.sameWork.slots, hb.sameWork.held, hb.opened, hb.reads⟩

/-! ## A header on a SEEKING link -/

/-- An asked reread changes the read list alone. -/
theorem Engine.askReread_eq (e : Engine) (refill : Bool) (t : Take) : e.askReread refill t =
    { e with port := { e.port with reads := (e.askReread refill t).port.reads } } := by
  unfold Engine.askReread; split <;> rfl

theorem Engine.askRereads_eq (e : Engine) (refill : Bool) (l : List Take) :
    l.foldl (fun e t => e.askReread refill t) e =
      { e with port := { e.port with reads := (l.foldl (fun e t => e.askReread refill t) e).port.reads } } := by
  induction l generalizing e with
  | nil => rfl
  | cons t l ih => rw [List.foldl_cons, ih, Engine.askReread_eq]

/-- With no Live take an admitted frame is outside every take. -/
theorem Engine.takeFrame_of_no_live {x : Front} {f : FeedId} {a : Admission} {e : Engine}
    (h : e.places[f].live = none) : (e.takeFrame x f a).2 = .outside := by
  unfold Engine.takeFrame Engine.liveTake
  rw [Engine.askRereads_eq]
  dsimp only
  rw [h]
  rfl

theorem State.lock_asksOnly (f : FeedId) (s : State) : s.eng.AsksOnly (s.lock f).eng := by
  refine .trans ?_ (State.sync_asksOnly f _)
  rw [State.setLink_eng]
  split
  · exact .refl _
  · exact Engine.ask_asksOnly ..

/-- Settles O19. -/
theorem frameHeaderSeekingResult : Obligations.FrameHeaderSeekingResult := by
  intro f chars n s he hs hh hw hn hl hc hg hrate hwidth hheight hlive hq locks
  obtain ⟨a, hfront, heng, hset, hrec, hexec⟩ := execFrameHeader_of_none he hs hh hw hn hc hg
  let b := a.captured f (parseHeader chars)
  have hbrec : b.front.receivers[f] = _ := State.captured_receiver f _ a
  have hbset : b.front.settings f = n := (State.captured_settings f _ a).trans hset
  have hagrees : (parseHeader chars).agrees (b.front.settings f) = true := by
    rw [hbset]; exact (HeaderFields.agrees_iff chars n).mpr ⟨hrate, hwidth, hheight⟩
  have hlink : b.front.receivers[f].link = .seeking := by rw [hbrec, hrec]; exact hl
  have hatt : b.front.attention = s.front.attention := by
    rw [State.captured_attention, hfront]; rfl
  have hcond : (b.front.receivers[f].candidate = true ∧ b.front.timers[f].intervalGood (b.front.settings f) = true) ↔
      locks = true := by
    rw [hbset, State.captured_timer, hset, FeedTimer.intervalGood_capture, hbrec, hrec, hfront]
    simp only [locks, Bool.and_eq_true]
    rfl
  rw [State.judgeHeader_of_seeking _ hagrees hlink] at hexec
  by_cases hlocks : locks = true
  · rw [if_pos (hcond.mpr hlocks)] at hexec
    have hout : ∀ p, ((b.lock f).eng.takeFrame (b.lock f).front f p).2 = .outside := fun p =>
      Engine.takeFrame_of_no_live (by
        rw [((State.captured_asksOnly f _ a).trans (State.lock_asksOnly f b)).sameWork.places, heng]; exact hlive)
    have hend : ((b.lock f).admitFrame f (a.place f (parseHeader chars))).front = (b.lock f).front := by
      rw [State.admitFrame_front, hout]
      exact Front.updReceiver_self rfl
    have hcount : b.front.refCount = s.front.refCount := by rw [State.captured_front, hfront]; rfl
    refine ⟨_, hexec, ?_⟩
    rw [State.settle_front_of_quiet (by rw [hend, State.lock_front]; exact hatt ▸ hq), hend, State.lock_front,
      Front.updReceiver_receivers, upd_same, hbrec, hrec, hcount, hlocks]
    simp
  · rw [if_neg (mt hcond.mp hlocks)] at hexec
    refine ⟨_, hexec, ?_⟩
    rw [State.settle_front_of_quiet (by rw [State.onReceiver_front]; exact hatt ▸ hq), State.onReceiver_front,
      Front.updReceiver_receivers, upd_same, hbrec, hrec, Bool.of_not_eq_true hlocks]
    simp [hl, -Fin.getElem_fin]

end Sys2Proof.Machine
end


section
/-! Admitted frames of a RECORDING take: the slot a frame is granted with its records, and the OVERRUN (R8, R9, R55, R80). -/

namespace Sys2Proof.Machine

/-! ## Records that join a queue -/

theorem joinQueue_of_no_end {q : List Record} (r : Record) (h : ∀ k ∈ q, k.body.isEnd = false) :
    joinQueue q r = q ++ [r] := by
  have : q.any (·.body.isEnd) = false := by simpa using h
  simp [joinQueue, this]

theorem Engine.bumpSeq_sameWaits (e : Engine) : e.SameWaits e.bumpSeq := ⟨rfl, rfl, rfl, rfl, rfl⟩

theorem Engine.queueEvent_sameWaits (t : Nat) (b : RecordBody) (e : Engine) : e.SameWaits (e.queueEvent t b) := by
  unfold Engine.queueEvent
  split
  · exact .refl e
  · split
    · exact (Engine.updTake_sameWaits e t fun _ => by rfl).trans (Engine.bumpSeq_sameWaits _)
    · exact (Engine.updTake_sameWaits e t fun _ => by rfl).trans (Engine.bumpSeq_sameWaits _)

theorem Engine.queueEvents_sameWaits (t : Nat) (bs : List RecordBody) (e : Engine) :
    e.SameWaits (e.queueEvents t bs) := by
  induction bs generalizing e with
  | nil => exact .refl e
  | cons b bs ih => exact (Engine.queueEvent_sameWaits t b e).trans (ih _)

/-- An ordinary event record joins the take's queue or is counted as discarded (R112). -/
theorem Engine.queueEvent_take {n : Nat} {b : RecordBody} {e : Engine} {k : Take} (hk : e.take? n = some k) :
    (e.queueEvent n b).take? n = some (if e.budget k.feed < eventPlaces then
      { k with queue := joinQueue k.queue (e.numbered b) } else k.discardEvents 1) := by
  unfold Engine.queueEvent
  rw [hk]
  dsimp only
  split
  · exact Engine.take?_updTake_self e _ (fun _ => rfl) hk
  · exact Engine.take?_updTake_self e _ (fun _ => rfl) hk

/-- Event records change a take's queue and its count of discarded events alone, and bring no END. -/
theorem Engine.queueEvents_take {n : Nat} {bs : List RecordBody} {e : Engine} {k : Take} (hk : e.take? n = some k)
    (hq : ∀ r ∈ k.queue, r.body.isEnd = false) (hb : ∀ b ∈ bs, b.isEnd = false) :
    ∃ q d, (e.queueEvents n bs).take? n = some { k with queue := q, eventsDiscarded := d } ∧
      ∀ r ∈ q, r.body.isEnd = false := by
  induction bs generalizing e k with
  | nil => exact ⟨k.queue, k.eventsDiscarded, hk, hq⟩
  | cons b bs ih =>
    have hstep := Engine.queueEvent_take (b := b) hk
    have hbs : ∀ c ∈ bs, c.isEnd = false := fun c hc => hb c (List.mem_cons_of_mem _ hc)
    split at hstep
    · obtain ⟨q, d, htake, hend⟩ := ih hstep (fun r hr => by
        rw [joinQueue_of_no_end _ hq, List.mem_append, List.mem_singleton] at hr
        rcases hr with hr | rfl
        · exact hq r hr
        · exact hb b List.mem_cons_self) hbs
      exact ⟨q, d, htake, hend⟩
    · obtain ⟨q, d, htake, hend⟩ := ih hstep hq hbs
      exact ⟨q, d, htake, hend⟩

theorem Take.frameRecords_no_end (s : Settings) (now : Bool) (measured : Nat) (t : Take) (a : Admission) :
    ∀ b ∈ t.frameRecords s now measured a, b.isEnd = false := by
  have hcadence : ∀ b ∈ cadenceRecords t.cadenceRecorded now measured, b.isEnd = false := by
    intro b hb
    unfold cadenceRecords at hb
    split at hb
    · cases hb
    · split at hb <;> (rw [List.mem_singleton] at hb; subst hb; rfl)
  have hcont : ∀ c, ∀ b ∈ continuityRecords s.rate (t.lastDay.getD 0) a c, b.isEnd = false := by
    intro c b hb
    cases c with
    | continuous => cases hb
    | gap n => rw [continuityRecords, List.mem_singleton] at hb; subst hb; rfl
    | discontinuity => rw [continuityRecords, List.mem_singleton] at hb; subst hb; rfl
  intro b hb
  unfold Take.frameRecords at hb
  split at hb
  · simp only [laterFrameRecords, List.mem_append, List.mem_map, Option.mem_toList, Option.map_eq_some_iff] at hb
    rcases hb with ((⟨c, -, rfl⟩ | hb) | hb) | ⟨tag, -, rfl⟩
    · rfl
    · exact hcont _ b hb
    · exact hcadence b hb
    · rfl
  · simp only [firstFrameRecords, List.mem_append, List.mem_map] at hb
    rcases hb with hb | ⟨i, -, rfl⟩
    · exact hcadence b hb
    · rfl

/-! ## The slot a frame is asked -/

theorem Engine.grantable_of_lowest {x : Front} {f : FeedId} {e : Engine} {i : SlotId}
    (hc : e.held[f].length < (x.settings f).ceiling) (hi : e.slots[i] = none)
    (hlow : ∀ j : SlotId, j < i → e.slots[j] ≠ none) :
    e.grantable x f = some i := by
  unfold Engine.grantable Engine.lowestFree
  rw [if_pos hc, List.find?_eq_some_iff_getElem]
  refine ⟨by rw [hi]; rfl, i.val, by simp, by simp, fun j hj => ?_⟩
  have := hlow ⟨j, by omega⟩ hj
  simpa using Option.isSome_iff_ne_none.mpr this

theorem Engine.grantable_of_full {x : Front} {f : FeedId} {e : Engine}
    (h : (x.settings f).ceiling ≤ e.held[f].length ∨ ∀ j : SlotId, e.slots[j] ≠ none) : e.grantable x f = none := by
  unfold Engine.grantable Engine.lowestFree
  rcases h with h | h
  · exact if_neg (by omega)
  · split
    · rw [List.find?_eq_none]
      intro j _
      rw [Option.isNone_iff_eq_none]
      exact h j
    · rfl

/-- What an admitted frame makes of the engine when it is slotted into take `t` at slot `i` (R80). -/
def Engine.slotted (x : Front) (f : FeedId) (t : Take) (a : Admission) (i : SlotId) (e : Engine) : Engine :=
  let s := x.settings f
  let now := x.timers[f].cadenceOff
  let e := e.grantSlot f t.id t.position i
  let e := { e with opened := upd e.opened f fun _ => some (OpenFrame.fresh s i) }
  let e := e.queueEvents t.id (t.frameRecords s now ((x.timers[f].measured).getD 0) a)
  let e := e.queueFrame t.id ⟨t.position, a.placed.tc, a.capture, a.placed.substituted, i, none⟩
  let e := e.updTake t.id fun k => { k with
    position := k.position + 1
    lastDay := some a.placed.tc.day
    cadenceRecorded := now
    firstFrame := true }
  e.raiseContinuity x f (t.classify s a)

theorem Engine.raiseContinuity_asksOnly (x : Front) (f : FeedId) (e : Engine) (c : Continuity) :
    e.AsksOnly (e.raiseContinuity x f c) := by
  cases c with
  | continuous => exact .refl e
  | gap n => exact Engine.setCauses_asksOnly ..
  | discontinuity => exact Engine.setCauses_asksOnly ..

/-- The RECORDING take `k` is the Live take of feed `f`, with no stop test to meet: its stop is on request and not deferred,
no take is Staged, and its position is below the limit. -/
structure Engine.PlainLive (e : Engine) (f : FeedId) (k : Take) : Prop where
  live : e.liveTake f = some k
  recording : k.state = .recording
  onRequest : k.stopMode = .onRequest
  staged : e.places[f].staged = none
  deferred : e.places[f].deferredStop = none
  position : k.position < 2 ^ 32 - 1

theorem Engine.PlainLive.take? {e : Engine} {f : FeedId} {k : Take} (h : e.PlainLive f k) : e.take? k.id = some k := by
  obtain ⟨m, -, hm⟩ := Option.bind_eq_some_iff.mp h.live
  have hid : k.id = m := by simpa using List.find?_some hm
  rw [hid, hm]

theorem Engine.PlainLive.ownStop {e : Engine} {f : FeedId} {k : Take} (h : e.PlainLive f k) (x : Front) (a : Admission) :
    ownStop x f k a = none := by
  have hpos := h.position
  unfold Machine.ownStop
  rw [h.onRequest]
  simp only [reduceCtorEq, false_and, if_false]
  exact if_neg (by unfold positionLimit; omega)

theorem Engine.PlainLive.ofSameWork {e e' : Engine} {f : FeedId} {k : Take} (h : e.PlainLive f k) (hw : e.SameWork e') :
    e'.PlainLive f k := by
  obtain ⟨hlive, hrec, hreq, hstaged, hdef, hpos⟩ := h
  exact ⟨(hw.liveTake f).trans hlive, hrec, hreq, by rw [hw.places]; exact hstaged, by rw [hw.places]; exact hdef, hpos⟩

/-- An admitted frame of such a take belongs to it, once the rereads are asked (R71, R76, R77). -/
theorem Engine.takeFrame_of_plainLive {x : Front} {f : FeedId} {a : Admission} {e : Engine} {k : Take}
    (h : e.PlainLive f k) :
    ∃ e' : Engine, e.SameWork e' ∧ e'.opened = e.opened ∧ e.takeFrame x f a = e'.belong x f k.id a := by
  obtain ⟨asked, hb, hwork, hopen⟩ : ∃ asked, (e.standingTakes f).foldl (fun e t => e.askReread false t) e = asked ∧
      e.SameWork asked ∧ asked.opened = e.opened :=
    ⟨_, Engine.askRereads_eq e false _, ⟨rfl, rfl, rfl, rfl, rfl, rfl, rfl, rfl⟩, rfl⟩
  have hp : asked.PlainLive f k := h.ofSameWork hwork
  refine ⟨asked, hwork, hopen, ?_⟩
  unfold Engine.takeFrame
  dsimp only
  rw [hb, hp.live]
  dsimp only
  rw [if_neg (by rw [h.recording]; nofun)]
  unfold Engine.admitRecording Engine.stagedTake
  rw [if_neg (by rw [hp.deferred]; nofun), h.ownStop, hp.staged]
  rfl

theorem Engine.belong_of_full {x : Front} {f : FeedId} {a : Admission} {e : Engine} {k : Take} (h : e.PlainLive f k)
    (hg : e.grantable x f = none) : e.belong x f k.id a = (e, .overrun) := by
  have hpos := h.position
  have hslot : e.slotFrame x f k.id a = (e, .overrun) := by
    unfold Engine.slotFrame
    rw [h.take?]
    dsimp only
    rw [if_neg (by unfold positionLimit; omega), hg]
  unfold Engine.belong
  rw [h.take?, hslot]

theorem Engine.belong_of_grantable {x : Front} {f : FeedId} {a : Admission} {e : Engine} {k : Take} {i : SlotId}
    (h : e.PlainLive f k) (hg : e.grantable x f = some i) : e.belong x f k.id a = (e.slotted x f k a i, .slotted) := by
  have hpos := h.position
  have hslot : e.slotFrame x f k.id a = (e.slotted x f k a i, .slotted) := by
    unfold Engine.slotFrame
    rw [h.take?]
    dsimp only
    rw [if_neg (by unfold positionLimit; omega), hg]
    rfl
  unfold Engine.belong
  rw [h.take?, hslot]
  dsimp only
  unfold Engine.afterGrant
  rw [if_neg (by rw [h.onRequest]; nofun)]

/-- The slots, the held lists and the open frames once a frame is slotted, and what stays of the blocks' work. -/
theorem Engine.slotted_pool (x : Front) (f : FeedId) (k : Take) (a : Admission) (i : SlotId) (e : Engine) :
    (e.slotted x f k a i).slots = upd e.slots i (fun _ => some (Slot.granted f k.id k.position)) ∧
    (e.slotted x f k a i).held = upd e.held f (fun h => h ++ [i]) ∧
    (e.slotted x f k a i).opened = upd e.opened f (fun _ => some (OpenFrame.fresh (x.settings f) i)) ∧
    e.SameWaits (e.slotted x f k a i) := by
  unfold Engine.slotted
  dsimp only
  refine ⟨?_, ?_, ?_, ?_⟩
  · rw [(Engine.raiseContinuity_asksOnly ..).sameWork.slots, Engine.updTake_slots]
    unfold Engine.queueFrame
    rw [Engine.bumpSeq_slots, Engine.updTake_slots, Engine.queueEvents_eq]
    rfl
  · rw [(Engine.raiseContinuity_asksOnly ..).sameWork.held, Engine.updTake_held]
    unfold Engine.queueFrame
    rw [Engine.bumpSeq_held, Engine.updTake_held, Engine.queueEvents_eq]
    rfl
  · rw [(Engine.raiseContinuity_asksOnly ..).opened, Engine.updTake_opened]
    unfold Engine.queueFrame
    rw [Engine.bumpSeq_opened, Engine.updTake_opened, Engine.queueEvents_eq]
    rfl
  · refine .trans (.trans ?_ (Engine.updTake_sameWaits _ _ fun _ => by rfl))
      (Engine.raiseContinuity_asksOnly ..).sameWork.sameWaits
    unfold Engine.queueFrame
    refine .trans (.trans ?_ (Engine.updTake_sameWaits _ _ fun _ => by rfl)) (Engine.bumpSeq_sameWaits _)
    refine .trans ?_ (Engine.queueEvents_sameWaits ..)
    exact ⟨rfl, rfl, rfl, rfl, rfl⟩

/-- The take once a frame is slotted into it: its position, its last day and the placeholder at its queue's tail. -/
theorem Engine.slotted_take {x : Front} {f : FeedId} {k : Take} {a : Admission} (i : SlotId) {e : Engine}
    (hk : e.take? k.id = some k) (hq : ∀ r ∈ k.queue, r.body.isEnd = false) :
    ∃ k' r, (e.slotted x f k a i).take? k.id = some k' ∧ k'.position = k.position + 1 ∧
      k'.lastDay = some a.placed.tc.day ∧ k'.queue.getLast? = some r ∧
      r.body = .frame ⟨k.position, a.placed.tc, a.capture, a.placed.substituted, i, none⟩ := by
  let opened : Engine := { e.grantSlot f k.id k.position i with
    opened := upd e.opened f fun _ => some (OpenFrame.fresh (x.settings f) i) }
  have hop : opened.take? k.id = some k := hk
  obtain ⟨q, d, htake, hend⟩ := Engine.queueEvents_take hop hq
    (Take.frameRecords_no_end (x.settings f) x.timers[f].cadenceOff ((x.timers[f].measured).getD 0) k a)
  let record : FrameRecord := ⟨k.position, a.placed.tc, a.capture, a.placed.substituted, i, none⟩
  let events := opened.queueEvents k.id
    (k.frameRecords (x.settings f) x.timers[f].cadenceOff ((x.timers[f].measured).getD 0) a)
  have hframe : (events.queueFrame k.id record).take? k.id = some { k with
      queue := q ++ [events.numbered (.frame record)], eventsDiscarded := d } := by
    rw [← joinQueue_of_no_end _ hend]
    exact Engine.take?_updTake_self _ _ (fun _ => by rfl) htake
  refine ⟨{ k with
      queue := q ++ [events.numbered (.frame record)]
      eventsDiscarded := d
      position := k.position + 1
      lastDay := some a.placed.tc.day
      cadenceRecorded := x.timers[f].cadenceOff
      firstFrame := true }, events.numbered (.frame record), ?_, rfl, rfl, List.getLast?_concat, rfl⟩
  unfold Engine.slotted
  dsimp only
  rw [(Engine.raiseContinuity_asksOnly ..).sameWork.take?]
  exact Engine.take?_updTake_self _ _ (fun _ => by rfl) hframe

/-- Where the header of feed `f` is placed (R43). -/
theorem State.place_eq {f : FeedId} {s : State} {n : Settings} (hn : s.front.settings f = n) (chars : List Byte) :
    let label := (parseHeader chars).label
    s.place f (parseHeader chars) =
      if (parseHeader chars).tcPresent = true ∧ n.rate.valid label = true then ⟨⟨label, n.rate.dayNumber label⟩, false⟩
      else match s.front.receivers[f].expected with
        | some day => ⟨⟨n.rate.label day, day⟩, true⟩
        | none => ⟨⟨⟨0, 0, 0, 0⟩, 0⟩, true⟩ := by
  intro label
  have hzero : n.rate.timecode 0 = ⟨⟨0, 0, 0, 0⟩, 0⟩ := by cases n.rate <;> decide
  unfold State.place placeLabel
  rw [hn, State.receiver_eq]
  simp only [← Bool.and_eq_true]
  split
  · rfl
  · cases s.front.receivers[f].expected with
    | none => rw [Option.getD_none, hzero]
    | some day => rfl

/-- A matching header of a LOCKED link, with such a Live take: its frame is admitted, and belongs to the take. -/
theorem execFrameHeader_of_plainLive {f : FeedId} {chars : List Byte} {n : Settings} {k : Take} {s : State}
    (he : s.front.receivers[f].enabled = true) (hs : s.front.receivers[f].signal = true)
    (hh : s.front.receivers[f].inHeader = true) (hw : s.front.receivers[f].waiting = none)
    (hn : s.front.receivers[f].active = some n) (hl : s.front.receivers[f].link = .locked) (hc : chars.length = 12)
    (hg : headerGood chars = true) (hrate : parseRate (fieldAt chars 0 1) = some n.rate)
    (hwidth : fieldAt chars 2 2 = n.w) (hheight : fieldAt chars 4 2 = n.h) (hk : s.eng.PlainLive f k) :
    ∃ (b : State) (e : Engine), b.front.attention = s.front.attention ∧ b.front.settings f = n ∧
      b.front.dram = s.front.dram ∧ b.front.refCount = s.front.refCount ∧
      b.front.receivers[f] = { s.front.receivers[f] with inHeader := false, expected := b.front.receivers[f].expected } ∧
      s.eng.SameWork e ∧ e.opened = s.eng.opened ∧
      b.eng.takeFrame b.front f (b.admission f (s.place f (parseHeader chars))) =
        e.belong b.front f k.id (b.admission f (s.place f (parseHeader chars))) ∧
      exec (.frameHeader f chars) s = .next (b.admitFrame f (s.place f (parseHeader chars))).settle := by
  obtain ⟨a, hfront, heng, hset, hrec, hexec⟩ := execFrameHeader_of_none he hs hh hw hn hc hg
  let b := a.captured f (parseHeader chars)
  have hbrec : b.front.receivers[f] = _ := State.captured_receiver f _ a
  have hbset : b.front.settings f = n := (State.captured_settings f _ a).trans hset
  have hagrees : (parseHeader chars).agrees (b.front.settings f) = true := by
    rw [hbset]; exact (HeaderFields.agrees_iff chars n).mpr ⟨hrate, hwidth, hheight⟩
  have hasks : s.eng.AsksOnly b.eng := heng ▸ State.captured_asksOnly f _ a
  have hplace : a.place f (parseHeader chars) = s.place f (parseHeader chars) := by
    unfold State.place
    rw [State.receiver_eq, State.receiver_eq, hset, Front.settings_of_active hn, hrec]
  rw [State.judgeHeader_of_locked _ hagrees (by rw [hbrec, hrec]; exact hl), hplace] at hexec
  obtain ⟨e, hwork, hopen, htake⟩ := Engine.takeFrame_of_plainLive (x := b.front)
    (a := b.admission f (s.place f (parseHeader chars))) (hk.ofSameWork hasks.sameWork)
  refine ⟨b, e, ?_, hbset, ?_, ?_, ?_, hasks.sameWork.trans hwork, hopen.trans hasks.opened, htake, hexec⟩
  · rw [State.captured_attention, hfront]; rfl
  · rw [State.captured_front, hfront]; rfl
  · rw [State.captured_front, hfront]; rfl
  · rw [hbrec, hrec]

/-- Settles O22. -/
theorem frameHeaderOverrunResult : Obligations.FrameHeaderOverrunResult := by
  intro f chars n k s he hs hh hw hn hl hc hg hrate hwidth hheight hlive hrec hreq hstaged hdef hpos hfull hq hwait
  have hk : s.eng.PlainLive f k := ⟨hlive, hrec, hreq, hstaged, hdef, hpos⟩
  obtain ⟨b, e, hatt, hset, hdram, -, hbrec, hwork, hopen, htake, hexec⟩ :=
    execFrameHeader_of_plainLive he hs hh hw hn hl hc hg hrate hwidth hheight hk
  rw [Engine.belong_of_full (hk.ofSameWork hwork)
    (Engine.grantable_of_full (by rw [hset, hwork.held, hwork.slots]; exact hfull))] at htake
  let t := b.admitFrame f (s.place f (parseHeader chars))
  have heng : t.eng = e := by rw [State.admitFrame_eng, htake]
  have hfront : t.front = b.front.updReceiver f fun r => r.answered .overrun := by rw [State.admitFrame_front, htake]
  have hsettle : t.settle = t :=
    State.settle_of_sameWaits hq hwait (by rw [hfront]; exact hatt) (heng ▸ hwork.sameWaits)
  refine ⟨t, by rw [hexec, hsettle], ?_⟩
  rw [heng, hfront, Front.updReceiver_receivers, upd_same]
  refine ⟨hwork.slots, hwork.held, hopen, hwork.takes, hwork.places, ?_, hdram⟩
  rw [hbrec]
  rfl

/-- Settles O21. -/
theorem frameHeaderSlottedResult : Obligations.FrameHeaderSlottedResult := by
  intro f chars n k i s he hs hh hw hn hl hc hg hrate hwidth hheight hlive hrec hfeed hreq hstaged hdef hpos hend hceil
    hfree hlow hq hwait label placed
  have hk : s.eng.PlainLive f k := ⟨hlive, hrec, hreq, hstaged, hdef, hpos⟩
  have hplaced : s.place f (parseHeader chars) = placed := State.place_eq (Front.settings_of_active hn) chars
  obtain ⟨b, e, hatt, hset, hdram, hcount, hbrec, hwork, hopen, htake, hexec⟩ :=
    execFrameHeader_of_plainLive he hs hh hw hn hl hc hg hrate hwidth hheight hk
  rw [hplaced] at htake hexec
  have hke := hk.ofSameWork hwork
  rw [Engine.belong_of_grantable hke (Engine.grantable_of_lowest (by rw [hset, hwork.held]; exact hceil)
    (by rw [hwork.slots]; exact hfree) (by rw [hwork.slots]; exact hlow))] at htake
  let t := b.admitFrame f placed
  have heng : t.eng = e.slotted b.front f k (b.admission f placed) i := by rw [State.admitFrame_eng, htake]
  have hfront : t.front = b.front.updReceiver f fun r => r.answered .slotted := by rw [State.admitFrame_front, htake]
  obtain ⟨hslots, hheld, hopened, hwaits⟩ := Engine.slotted_pool b.front f k (b.admission f placed) i e
  obtain ⟨k', r, hk', hposition, hday, hlast, hbody⟩ := Engine.slotted_take (x := b.front) (f := f)
    (a := b.admission f placed) i hke.take? (fun r hr => by
      have := hend r hr
      unfold RecordBody.isEnd
      split
      · rename_i h; exact absurd h this
      · rfl)
  have hsettle : t.settle = t :=
    State.settle_of_sameWaits hq hwait (by rw [hfront]; exact hatt) (heng ▸ hwork.sameWaits.trans hwaits)
  refine ⟨t, by rw [hexec, hsettle], ?_⟩
  rw [heng, hfront, hslots, hheld, hopened, hset, Front.updReceiver_receivers, upd_same, upd_same, upd_same, upd_same,
    hwork.held, hwork.slots]
  refine ⟨rfl, fun j hj => upd_other _ hj _, rfl, rfl,
    ⟨k', r, hk', hposition, hday, hlast, ?_⟩, rfl, rfl, rfl, ?_, hdram⟩
  · rw [hbody, ← hcount]; rfl
  · rw [hbrec]; rfl

end Sys2Proof.Machine
end


section
/-! What the blocks' own acts keep of the feeds while the front stays: no act opens a frame, and a feed's LOST cause stays
or follows its condition (R7, R18, R170). -/

namespace Sys2Proof.Machine

/-- Event causes and condition causes joined have LOST as its condition has it. -/
theorem conditionCauses_lost (x : Front) (e : Engine) (f : FeedId) (c : BitVec 9) :
    (c &&& eventCauses ||| conditionCauses x e f) &&& 0x040 = Cause.lost.bitIf x.receivers[f].lossCondition := by
  have hevent : c &&& eventCauses &&& 0x040 = 0 := by
    rw [BitVec.and_assoc, show eventCauses &&& 0x040 = 0 from rfl]
    exact BitVec.and_zero
  have hlost : ∀ b, Cause.lost.bitIf b &&& 0x040 = Cause.lost.bitIf b := by decide
  have hother : ∀ b, Cause.starved.bitIf b &&& 0x040 = 0 ∧ Cause.cadenceOff.bitIf b &&& 0x040 = 0 := by decide
  unfold conditionCauses
  rw [BitVec.and_or_distrib_right, hevent, BitVec.and_or_distrib_right, BitVec.and_or_distrib_right, hlost,
    (hother _).1, (hother _).2]
  simp

namespace Engine

theorem syncConditions_lost (x : Front) (f : FeedId) (e : Engine) :
    (e.syncConditions x f).notices.causes[f] &&& 0x040 = Cause.lost.bitIf x.receivers[f].lossCondition := by
  unfold Engine.syncConditions
  rw [Engine.setCauses_causes, upd_same]
  exact conditionCauses_lost ..

/-- From engine `a` to `e`, under front `x`, no feed without an open frame has got one, and each feed's LOST cause has stayed
or followed its condition. -/
structure Acted (x : Front) (a e : Engine) : Prop where
  opened : ∀ f : FeedId, a.opened[f] = none → e.opened[f] = none
  lost : ∀ f : FeedId, e.notices.causes[f] &&& 0x040 = a.notices.causes[f] &&& 0x040 ∨
    e.notices.causes[f] &&& 0x040 = Cause.lost.bitIf x.receivers[f].lossCondition

namespace Acted

variable {x : Front} {a e : Engine}

theorem refl (x : Front) (e : Engine) : Acted x e e := ⟨fun _ h => h, fun _ => .inl rfl⟩

theorem trans {b c : Engine} (h : Acted x a b) (k : Acted x b c) : Acted x a c := by
  refine ⟨fun f hf => k.opened f (h.opened f hf), fun f => ?_⟩
  rcases k.lost f with hk | hk
  · rw [hk]; exact h.lost f
  · exact .inr hk

/-! ### Changes that leave the open frames and the causes -/

theorem same {e' : Engine} (h : Acted x a e) (ho : e'.opened = e.opened)
    (hc : e'.notices.causes = e.notices.causes) : Acted x a e' :=
  h.trans ⟨fun f hf => by rw [ho]; exact hf, fun f => .inl (by rw [hc])⟩

theorem ask {w : WriteRequest} (h : Acted x a e) : Acted x a (e.ask w) :=
  h.same (Engine.ask_opened _ _) (by rw [Engine.ask_notices])

theorem updTake {t : Nat} {g : Take → Take} (h : Acted x a e) : Acted x a (e.updTake t g) := h.same rfl rfl

theorem updPlaces {f : FeedId} {g : Places → Places} (h : Acted x a e) : Acted x a (e.updPlaces f g) := h.same rfl rfl

theorem updSlot {i : SlotId} {g : Slot → Slot} (h : Acted x a e) : Acted x a (e.updSlot i g) := h.same rfl rfl

theorem withdrawReads {p : ReadRequest → Bool} (h : Acted x a e) : Acted x a (e.withdrawReads p) := h.same rfl rfl

theorem setMover {m : MoverState} (h : Acted x a e) : Acted x a (e.setMover m) := h.same rfl rfl

theorem setCheck {c : Option (SlotId × CheckStage)} (h : Acted x a e) : Acted x a (e.setCheck c) := h.same rfl rfl

theorem setRefeed {t : Nat} {c : Option CheckStage} (h : Acted x a e) : Acted x a (e.setRefeed t c) := h.updTake

theorem setInHand {c : Option (Nat × WriterStage)} (h : Acted x a e) : Acted x a (e.setInHand c) := h.same rfl rfl

theorem setBusy {q : Requester} {p : Payload} {i : Option SlotId} (h : Acted x a e) : Acted x a (e.setBusy q p i) :=
  h.same rfl rfl

theorem freeSlot {i : SlotId} (h : Acted x a e) : Acted x a (e.freeSlot i) := h.same rfl rfl

theorem askState {t : Nat} {sheet : HostAddr} {st : SheetState} (h : Acted x a e) : Acted x a (e.askState t sheet st) :=
  h.ask.ask

theorem foldl {α : Type} {g : Engine → α → Engine} (hg : ∀ {e b}, Acted x a e → Acted x a (g e b)) (l : List α)
    (h : Acted x a e) : Acted x a (l.foldl g e) := by
  induction l generalizing e with
  | nil => exact h
  | cons b l ih => exact ih (hg h)

theorem queueEvent {t : Nat} {b : RecordBody} (h : Acted x a e) : Acted x a (e.queueEvent t b) := by
  rw [Engine.queueEvent_eq]; exact h.same rfl rfl

theorem queueBehind {n t : Nat} {bs : List RecordBody} (h : Acted x a e) : Acted x a (e.queueBehind n t bs) := by
  rw [Engine.queueBehind_eq]; exact h.same rfl rfl

theorem queueStart {f : FeedId} {t : Nat} {r : StartRecord} (h : Acted x a e) : Acted x a (e.queueStart f t r) := by
  rw [Engine.queueStart_eq]; exact h.same rfl rfl

theorem queueEnd {f : FeedId} {t : Nat} (h : Acted x a e) : Acted x a (e.queueEnd f t) := by
  rw [Engine.queueEnd_eq]; exact h.same rfl rfl

theorem withdrawAtSplit {kind : Exhaustion} {t : Take} (h : Acted x a e) : Acted x a (e.withdrawAtSplit kind t) := by
  rw [Engine.withdrawAtSplit_eq]; exact h.same rfl rfl

theorem moveRecords {kind : Exhaustion} {t g : Take} (h : Acted x a e) : Acted x a (e.moveRecords kind t g) := by
  rw [Engine.moveRecords_eq]; exact h.same rfl rfl

theorem trySettle {i : SlotId} (h : Acted x a e) : Acted x a (e.trySettle i) := by
  rw [Engine.trySettle_eq]; exact h.same rfl rfl

theorem decideBrowse {i : SlotId} {o : BrowseOutcome} (h : Acted x a e) : Acted x a (e.decideBrowse i o) :=
  .trySettle h.updSlot

/-! ### Notice causes -/

/-- A feed's causes change, with LOST as it was or as its condition has it. -/
theorem setCauses {f : FeedId} {c : BitVec 9} (hc : c &&& 0x040 = e.notices.causes[f] &&& 0x040 ∨
    c &&& 0x040 = Cause.lost.bitIf x.receivers[f].lossCondition) (h : Acted x a e) : Acted x a (e.setCauses x f c) := by
  refine h.trans ⟨fun g hg => ?_, fun g => ?_⟩
  · rw [Engine.setCauses_eq]; exact hg
  · rw [Engine.setCauses_causes, upd_get]
    by_cases hfg : f = g
    · subst hfg
      rw [if_pos rfl]
      exact hc
    · rw [if_neg hfg]
      exact .inl rfl

theorem raise {f : FeedId} {c : Cause} (hc : c.bit &&& 0x040 = 0) (h : Acted x a e) : Acted x a (e.raise x f c) := by
  refine setCauses (.inl ?_) h
  rw [BitVec.and_or_distrib_right, hc]
  exact BitVec.or_zero

theorem syncConditions {f : FeedId} (h : Acted x a e) : Acted x a (e.syncConditions x f) :=
  setCauses (.inr (conditionCauses_lost ..)) h

/-! ### Frames leave the pool -/

theorem withdrawMover {i : SlotId} (h : Acted x a e) : Acted x a (e.withdrawMover i) := by
  unfold Engine.withdrawMover
  split
  · exact h
  · split
    · exact h.same rfl rfl
    · exact h
  · split
    · exact h.same rfl rfl
    · exact h

theorem withdrawCheck {i : SlotId} (h : Acted x a e) : Acted x a (e.withdrawCheck i) := by
  unfold Engine.withdrawCheck
  split
  · split
    · exact h.same rfl rfl
    · exact h
  · exact h

theorem abandonReduction {i : SlotId} (h : Acted x a e) : Acted x a (e.abandonReduction i) := by
  unfold Engine.abandonReduction
  split
  · split
    · exact h.same rfl rfl
    · exact h
  · exact h

theorem closeOpen {i : SlotId} (h : Acted x a e) : Acted x a (e.closeOpen i) := by
  refine h.trans ⟨fun f hf => ?_, fun f => .inl rfl⟩
  show (e.opened.map _)[f] = none
  rw [Fin.getElem_fin, Vector.getElem_map, ← Fin.getElem_fin, hf]
  rfl

theorem abandonSlot {i : SlotId} (h : Acted x a e) : Acted x a (e.abandonSlot i) := by
  have hclosed : Acted x a ((((e.withdrawMover i).withdrawCheck i).abandonReduction i).closeOpen i) :=
    h.withdrawMover.withdrawCheck.abandonReduction.closeOpen
  unfold Engine.abandonSlot
  dsimp only
  split
  · exact .updSlot (hclosed.same rfl rfl)
  · exact .freeSlot (hclosed.same rfl rfl)

theorem moveFrame {t : Nat} {browseOn : Bool} {p : SlotId × Nat} (h : Acted x a e) :
    Acted x a (e.moveFrame t browseOn p) :=
  h.withdrawMover.withdrawCheck.abandonReduction.updSlot

/-! ### Takes begin, close and end -/

theorem beginTake {f : FeedId} {t : Nat} {first : Bool} {c : Count} {tc : Timecode} (h : Acted x a e) :
    Acted x a (e.beginTake x f t first c tc) := by
  unfold Engine.beginTake
  dsimp only
  split
  · exact h
  · exact .ask (.raise rfl (.askState (.updTake (.queueBehind (.queueStart h.updTake)))))

theorem promote {f : FeedId} {t : Take} {mode : StartMode} (h : Acted x a e) : Acted x a (e.promote f t mode) := by
  unfold Engine.promote
  exact .ask (.askState h.updPlaces.updTake)

theorem cancelTake {t : Take} (h : Acted x a e) : Acted x a (e.cancelTake t) := by
  unfold Engine.cancelTake
  exact h.updTake.ask

theorem cancelStaged {f : FeedId} (h : Acted x a e) : Acted x a (e.cancelStaged f) := by
  unfold Engine.cancelStaged
  split
  · exact h
  · exact h.cancelTake.updPlaces

theorem closeLive {f : FeedId} {t : Take} {reason : CloseReason} {c : Count} (h : Acted x a e) :
    Acted x a (e.closeLive f t reason c) := by
  unfold Engine.closeLive
  exact .ask (.askState (.queueEnd h.updPlaces.updTake))

theorem deferStop {f : FeedId} {t : Take} {reason : CloseReason} (h : Acted x a e) :
    Acted x a (e.deferStop f t reason) := h.updPlaces.updTake

theorem promoteAfterClose {f : FeedId} {reason : CloseReason} (h : Acted x a e) :
    Acted x a (e.promoteAfterClose f reason) := by
  unfold Engine.promoteAfterClose
  split
  · exact h
  · split
    · exact h.cancelStaged
    · exact h.cancelStaged
    · exact h.cancelStaged
    · exact h.promote

theorem promoteAfterDeferral {f : FeedId} {reason : CloseReason} (h : Acted x a e) :
    Acted x a (e.promoteAfterDeferral f reason) := by
  unfold Engine.promoteAfterDeferral
  split
  · exact h
  · exact h.promote

theorem discardTail {kind : Exhaustion} {n : Nat} (h : Acted x a e) : Acted x a (e.discardTail kind n) := by
  unfold Engine.discardTail
  split
  · exact h
  · dsimp only
    have habandon : ∀ (l : List SlotId) {b : Engine}, Acted x a b → Acted x a (l.foldl Engine.abandonSlot b) :=
      fun l => foldl abandonSlot l
    split
    · exact habandon _ h.withdrawAtSplit.updTake
    · exact .ask (habandon _ h.withdrawAtSplit.updTake)

theorem rollover {f : FeedId} {kind : Exhaustion} {n : Nat} {g : Take} (h : Acted x a e) :
    Acted x a (e.rollover x f kind n g) := by
  unfold Engine.rollover
  split
  · exact h
  · rename_i t ht
    dsimp only
    have hbegun : ∀ first c tc, Acted x a
        (((e.moveRecords kind t g).updPlaces f fun p => { p with live := some g.id, staged := none }).beginTake x f g.id
          first c tc) :=
      fun _ _ _ => beginTake h.moveRecords.updPlaces
    have hmoved := fun first c tc => foldl (g := Engine.moveFrame g.id g.browseOn) moveFrame
      (frameSlots (e.tailRecords kind t)).zipIdx (hbegun first c tc)
    split
    · split
      · exact (hmoved _ _ _).deferStop
      · exact (hmoved _ _ _).closeLive.promoteAfterClose
    · exact hmoved _ _ _

theorem closeExhausted {f : FeedId} {kind : Exhaustion} {t : Take} (h : Acted x a e) :
    Acted x a (e.closeExhausted x f kind t) := by
  unfold Engine.closeExhausted
  dsimp only
  split
  · exact h.closeLive.discardTail
  · split
    · exact h.closeLive.rollover
    · exact h.closeLive.discardTail.promote

theorem findExhausted {kind : Exhaustion} {n : Nat} (h : Acted x a e) : Acted x a (e.findExhausted x kind n) := by
  unfold Engine.findExhausted
  split
  · exact h
  · rename_i t ht
    dsimp only
    have hfound : ∀ g p, Acted x a (((e.updTake n g).withdrawReads p).syncConditions x t.feed) :=
      fun g p => h.updTake.withdrawReads.syncConditions
    split
    · split
      · exact h.discardTail
      · exact h
    · split
      · exact (hfound _ _).discardTail
      · split
        · exact hfound _ _
        · split
          · exact (hfound _ _).deferStop
          · exact (hfound _ _).closeExhausted

theorem effectDeferred {f : FeedId} (h : Acted x a e) : Acted x a (e.effectDeferred x f) := by
  unfold Engine.effectDeferred
  split
  · dsimp only
    have hdone : Acted x a (e.updPlaces f fun p => { p with deferredStop := none }) := h.updPlaces
    split
    · exact hdone.closeExhausted
    · refine .promoteAfterDeferral ?_
      split
      · exact hdone.closeLive.discardTail
      · exact hdone.closeLive
  · exact h

theorem dropTake {n : Nat} (h : Acted x a e) : Acted x a (e.dropTake n) := h.same rfl rfl

theorem leaveClosing {t : Take} (h : Acted x a e) : Acted x a (e.leaveClosing x t) := by
  unfold Engine.leaveClosing
  exact .syncConditions (.effectDeferred (.syncConditions (.raise rfl h.dropTake.updPlaces)))

theorem leaveEnding {t : Take} (h : Acted x a e) : Acted x a (e.leaveEnding x t) := by
  unfold Engine.leaveEnding
  exact .raise rfl h.dropTake.updPlaces

theorem stateWritten {n : Nat} {st : SheetState} (h : Acted x a e) : Acted x a (e.stateWritten x n st) := by
  unfold Engine.stateWritten
  split
  · exact h
  · cases st with
    | closed =>
      dsimp only
      split
      · exact h
      · exact h.leaveClosing
    | aborted => exact h.leaveEnding
    | cancelled | superseded => exact h.dropTake
    | armed | staged | recording | closing => exact h

/-! ### Room checks -/

theorem askEntry {use : EntryUse} {t : Take} {n : Nat} (h : Acted x a e) : Acted x a (e.askEntry use t n) :=
  h.same rfl rfl

theorem starveEssence {t : Take} (h : Acted x a e) : Acted x a (e.starveEssence x t) := by
  unfold Engine.starveEssence
  split
  · exact h.findExhausted
  · split
    · exact h
    · exact h.updTake.queueEvent.syncConditions

theorem moverCheck {i : SlotId} {failed : Bool} (h : Acted x a e) : Acted x a (e.moverCheck x i failed) := by
  have hidle : Acted x a (e.setMover .idle) := h.setMover
  unfold Engine.moverCheck
  split
  · exact hidle
  · split
    · exact h.updSlot.setMover
    · split
      · exact hidle.starveEssence
      · exact h.askEntry.setMover
    · exact hidle.starveEssence
    · exact hidle.findExhausted

theorem moverStep {e' : Engine} (h : Acted x a e) (he : e.moverStep x = some e') : Acted x a e' := by
  unfold Engine.moverStep at he
  split at he
  · obtain ⟨p, -, rfl⟩ := Option.map_eq_some_iff.mp he
    exact h.same rfl rfl
  · cases he
    exact h.moverCheck
  · cases he

theorem refeedCheck {t : Take} {failed : Bool} (h : Acted x a e) : Acted x a (e.refeedCheck x t failed) := by
  have hset : ∀ st, Acted x a (e.setRefeed t.id st) := fun st => h.setRefeed
  unfold Engine.refeedCheck
  split
  · exact hset _
  · split
    · exact h.updTake.queueEvent.syncConditions
    · split
      · exact hset _
      · exact h.askEntry.setRefeed
    · exact hset _
    · exact (hset _).findExhausted

theorem refeedStep {e' : Engine} (h : Acted x a e) (he : e.refeedStep x = some e') : Acted x a e' := by
  obtain ⟨t, -, rfl⟩ := Option.map_eq_some_iff.mp he
  exact h.refeedCheck

theorem reducerCheck {i : SlotId} {failed : Bool} (h : Acted x a e) : Acted x a (e.reducerCheck x i failed) := by
  have hfree : Acted x a (e.setCheck none) := h.setCheck
  unfold Engine.reducerCheck
  split
  · exact hfree
  · split
    · exact (h.updSlot (i := i) (g := fun s => { s with browse := .reducing })).same rfl rfl
    · split
      · exact hfree.decideBrowse
      · exact h.askEntry.setCheck
    · exact hfree.decideBrowse
    · exact hfree.decideBrowse

theorem reducerStep {e' : Engine} (h : Acted x a e) (he : e.reducerStep x = some e') : Acted x a e' := by
  unfold Engine.reducerStep at he
  split at he
  · cases he
    exact h.reducerCheck
  · cases he
  · split at he
    · cases he
    · obtain ⟨p, -, rfl⟩ := Option.map_eq_some_iff.mp he
      exact h.same rfl rfl

theorem writerAct {t : Take} {w : WriterFinding} (h : Acted x a e) : Acted x a (e.writerAct x t w) := by
  have hfree : Acted x a (e.setInHand none) := h.setInHand
  cases w with
  | pass => exact hfree
  | write => exact h.same rfl rfl
  | read n => exact h.same rfl rfl
  | starve => exact hfree.updTake.syncConditions
  | exhaust => exact hfree.findExhausted

theorem writerStep {e' : Engine} (h : Acted x a e) (he : e.writerStep x = some e') : Acted x a e' := by
  unfold Engine.writerStep at he
  split at he
  · cases he
    unfold Engine.writerCheck
    split
    · exact h.same rfl rfl
    · exact h.writerAct
  · cases he
  · obtain ⟨t, -, rfl⟩ := Option.map_eq_some_iff.mp he
    exact h.writerAct

theorem blockStep {e' : Engine} (h : Acted x a e) (he : e.blockStep x = some e') : Acted x a e' := by
  unfold Engine.blockStep at he
  rcases Option.or_eq_some_iff.mp he with he | ⟨-, he⟩
  · exact h.refeedStep he
  · rcases Option.or_eq_some_iff.mp he with he | ⟨-, he⟩
    · exact h.moverStep he
    · rcases Option.or_eq_some_iff.mp he with he | ⟨-, he⟩
      · exact h.reducerStep he
      · exact h.writerStep he

/-! ### Grants of the link -/

theorem handLine (h : Acted x a e) : Acted x a e.handLine := by
  unfold Engine.handLine
  split
  · split
    · exact h.same rfl rfl
    · exact h
  · exact h

theorem release {f : FeedId} {k : WrittenFrame} (h : Acted x a e) : Acted x a (e.release x f k) := by
  unfold Engine.release
  dsimp only
  split
  · exact .raise rfl h.freeSlot
  · exact h.freeSlot

theorem markWritten {f : FeedId} {g : WrittenFrame → WrittenFrame} (h : Acted x a e) :
    Acted x a (e.markWritten x f g) := by
  unfold Engine.markWritten Engine.releaseCovered
  exact foldl release _ (h.same rfl rfl)

theorem writeIssued {w : WriteRequest} (h : Acted x a e) : Acted x a (e.writeIssued x w) := by
  unfold Engine.writeIssued
  split
  · split
    · exact h
    · exact h.markWritten
  · exact h.markWritten
  · exact h.stateWritten
  · exact h

theorem frameWritten {t : Take} {r : FrameRecord} (h : Acted x a e) : Acted x a (e.frameWritten t r) := by
  unfold Engine.frameWritten
  exact .ask (.ask (h.same rfl rfl))

theorem recordWritten {t : Take} {b : RecordBody} (h : Acted x a e) : Acted x a (e.recordWritten t b) := by
  unfold Engine.recordWritten
  split
  · exact h.frameWritten
  · exact h.askState
  · exact h

theorem grantRecord {n : Nat} (h : Acted x a e) : Acted x a (e.grantRecord n) := by
  unfold Engine.grantRecord
  split
  · exact h.setInHand
  · split
    · exact h.setInHand
    · exact h.setBusy.setInHand.updTake.recordWritten

theorem grantEssence {i : SlotId} {next : Nat} (h : Acted x a e) : Acted x a (e.grantEssence x i next) := by
  unfold Engine.grantEssence
  split
  · exact h.setMover
  · dsimp only
    split
    · exact .trySettle (.setMover (.updSlot (h.same rfl rfl)))
    · exact .setMover (h.same rfl rfl)

theorem grantBrowse {r : Reduction} {l : LineInHand} (h : Acted x a e) : Acted x a (e.grantBrowse r l) := by
  unfold Engine.grantBrowse
  dsimp only
  split
  · split
    · exact .decideBrowse (h.same rfl rfl)
    · exact .handLine (h.same rfl rfl)
  · exact h.same rfl rfl

theorem grantPicture {e' : Engine} (h : Acted x a e) (he : e.grantPicture x = some e') : Acted x a e' := by
  unfold Engine.grantPicture at he
  split at he
  · cases he
    split
    · exact h.grantEssence
    · exact h.grantBrowse
  · cases he
    exact h.grantEssence
  · cases he
    exact h.grantBrowse
  · cases he

theorem grantPort {e' : Engine} (h : Acted x a e) (he : e.grantPort x = some e') : Acted x a e' := by
  unfold Engine.grantPort at he
  split at he
  · cases he
    exact .writeIssued (.setBusy (h.same rfl rfl))
  · cases he
    exact .setBusy (h.same rfl rfl)
  · cases he

theorem grantIndex {e' : Engine} (h : Acted x a e) (he : e.grantIndex = some e') : Acted x a e' := by
  unfold Engine.grantIndex at he
  split at he
  · cases he
    exact h.grantRecord
  · cases he

theorem arbiterStep {e' : Engine} (h : Acted x a e) (he : e.arbiterStep x = some e') : Acted x a e' := by
  unfold Engine.arbiterStep at he
  split at he
  · cases he
  · rcases Option.or_eq_some_iff.mp he with he | ⟨-, he⟩
    · exact h.grantPort he
    · rcases Option.or_eq_some_iff.mp he with he | ⟨-, he⟩
      · exact h.grantIndex he
      · exact h.grantPicture he

end Acted

end Engine

/-- What the acts of one step keep of the feeds with a quiet Attention Unit. -/
theorem State.settle_acted {s : State} (hq : s.front.attention.quiet = true) :
    s.eng.Acted s.front s.settle.eng := by
  refine (State.settle_keeps (P := fun t => t.front = s.front ∧ s.eng.Acted s.front t.eng) ?_ ⟨rfl, .refl _ _⟩).2
  rintro t t' ⟨hf, ht⟩ h
  rcases State.unitStep_cases h with hact | ⟨e, hact, rfl⟩ | hact | ⟨e, hact, rfl⟩
  · rw [State.serveStep_of_quiet (by rw [hf]; exact hq)] at hact
    cases hact
  · exact ⟨hf, ht.blockStep (hf ▸ hact)⟩
  · rw [State.refillStep_of_quiet (by rw [hf]; exact hq)] at hact
    cases hact
  · exact ⟨hf, ht.arbiterStep (hf ▸ hact)⟩

end Sys2Proof.Machine
end


section
/-! The link leaves LOCKED (R6, R7, R14, R103, R170), by SIGNAL_LOSS or by LOSS_DEADLINE_EXPIRY. -/

namespace Sys2Proof.Machine

namespace Engine.Acted

variable {x : Front} {a e : Engine}

theorem skipOldest {f : FeedId} (h : Acted x a e) : Acted x a (e.skipOldest f) := by
  unfold Engine.skipOldest
  split
  · exact h
  · exact h.withdrawCheck.decideBrowse

theorem skipDownTo {n : Nat} {f : FeedId} (fuel : Nat) (h : Acted x a e) : Acted x a (e.skipDownTo n f fuel) := by
  induction fuel generalizing e with
  | zero => exact h
  | succ fuel ih =>
    unfold Engine.skipDownTo
    split
    · exact ih h.skipOldest
    · exact h

end Engine.Acted

theorem Engine.AsksOnly.opened_none {e e' : Engine} {f : FeedId} (h : e.AsksOnly e') (ho : e.opened[f] = none) :
    e'.opened[f] = none := by
  rw [h.opened]
  exact ho

theorem State.setLink_asksOnly (f : FeedId) (l : Link) (s : State) : s.eng.AsksOnly (s.setLink f l).eng := by
  rw [State.setLink_eng]
  split
  · exact .refl _
  · exact Engine.ask_asksOnly ..

/-- A feed has no open frame once its frame has closed (R15). -/
theorem State.closeFrame_opened (f : FeedId) (s : State) : (s.closeFrame f).eng.opened[f] = none := by
  unfold State.closeFrame
  split
  · assumption
  · split
    · show (Engine.frameEmpty f _ _).opened[f] = none
      unfold Engine.frameEmpty
      dsimp only
      split
      · exact upd_same ..
      · exact upd_same ..
    · show (Engine.frameReady _ f _ _ _ _).opened[f] = none
      unfold Engine.frameReady
      dsimp only
      rw [Engine.updSlot_opened]
      have hclosed : ∀ e : Engine, ({ e with opened := upd e.opened f fun _ => none } : Engine).opened[f] = none :=
        fun e => upd_same ..
      split
      · exact ((Engine.Acted.refl s.front _).skipDownTo 96).opened f (hclosed _)
      · exact hclosed _

/-! ## Leaving LOCKED -/

/-- The part once the link of feed `f` has left LOCKED for `l`, before pending settings become active. -/
def State.left (f : FeedId) (l : Link) (cause : LossCause) (s : State) : State :=
  (((s.setLink f l).closeFrame f).linkLoss f cause).sync f

theorem State.leaveLocked_eq (f : FeedId) (l : Link) (cause : LossCause) (s : State) :
    s.leaveLocked f l cause = (s.left f l cause).applyPending f := rfl

/-- Of the front, the link's leaving changes card DRAM and the feed's receiver: its link, and the tally of an empty frame. -/
theorem State.left_front (f : FeedId) (l : Link) (cause : LossCause) (s : State) :
    ∃ dram tally, (s.left f l cause).front =
      { s.front.updReceiver f fun r => { r with link := l, tally := tally } with dram := dram } := by
  have h : (s.left f l cause).front = ((s.setLink f l).closeFrame f).front := State.linkLoss_front ..
  rw [h, State.closeFrame_front, State.setLink_front]
  by_cases he : (s.setLink f l).eng.openEmpty f = true
  · refine ⟨((s.setLink f l).closeFrame f).front.dram,
      { s.front.receivers[f].tally with emptyFrame := bump s.front.receivers[f].tally.emptyFrame }, ?_⟩
    simp only [he, if_true, Front.updReceiver, upd_upd]
    rfl
  · refine ⟨((s.setLink f l).closeFrame f).front.dram, s.front.receivers[f].tally, ?_⟩
    simp only [he, Front.updReceiver, upd_upd]
    rfl

/-- The command by which a LOCKED link leaves for `l`. -/
def leavesLocked (c : Instr) (f : FeedId) (l : Link) (cause : LossCause) (s : State) : Prop :=
  c = .signalLoss f ∧ l = .dark ∧ cause = .dark ∨
    c = .lossDeadlineExpiry f ∧ l = .seeking ∧ cause = .deadline ∧ s.front.timers[f].deadline = some 0

/-- The part when the leaving begins: the line, the candidate and a header in progress are discarded, and the signal's loss
or the deadline's expiry is noted. -/
theorem exec_of_leaves {c : Instr} {f : FeedId} {l : Link} {cause : LossCause} {s : State}
    (hc : leavesLocked c f l cause s) (he : s.front.receivers[f].enabled = true) (hs : s.front.receivers[f].signal = true)
    (hl : s.front.receivers[f].link = .locked) :
    ∃ (b : State) (timer : FeedTimer) (tally : Tally), exec c s = .next (b.leaveLocked f l cause).settle ∧
      b.eng = s.eng ∧ b.front = (s.front.updTimer f fun _ => timer).updReceiver f fun r => { r with
        signal := l = .seeking, candidate := false, line := .empty, inHeader := r.inHeader && l = .seeking
        tally := tally } := by
  rcases hc with ⟨rfl, rfl, rfl⟩ | ⟨rfl, rfl, rfl, hd⟩
  · have hself : (s.front.updTimer f fun _ => s.front.timers[f]) = s.front := by
      unfold Front.updTimer
      rw [upd_eq_self _ _ _ rfl]
    refine ⟨s.onReceiver f (Receiver.loseSignal (s.recording f)), s.front.timers[f],
      (s.front.receivers[f].cutHeader (s.recording f)).tally,
      by rw [execSignalLoss_of_listens he hs, if_pos hl], rfl, ?_⟩
    rw [hself]
    refine Front.updReceiver_congr ?_
    simp [Receiver.loseSignal, Receiver.cutHeader]
  · refine ⟨(s.onFront fun x => x.updTimer f fun t => { t with deadline := none }).onReceiver f
      fun r => { r with line := .empty, candidate := false }, { s.front.timers[f] with deadline := none },
      s.front.receivers[f].tally, ?_, rfl, ?_⟩
    · rw [execLossDeadlineExpiry_of_due hd]
      unfold State.expireDeadline
      dsimp only
      rw [State.receiver_eq, State.onFront_front, Front.updTimer_receivers, hl]
    · refine Front.updReceiver_congr ?_
      simp [hs, -Fin.getElem_fin]

theorem State.left_opened (f : FeedId) (l : Link) (cause : LossCause) (s : State) :
    (s.left f l cause).eng.opened[f] = none := by
  have hclosed := (s.setLink f l).closeFrame_opened f
  have hloss : (((s.setLink f l).closeFrame f).linkLoss f cause).eng.opened[f] = none := by
    unfold State.linkLoss
    split
    · exact hclosed
    · exact ((Engine.Acted.refl s.front _).queueEvent).opened f hclosed
  exact (State.sync_asksOnly f _).opened_none hloss

theorem State.left_lost (f : FeedId) (l : Link) (cause : LossCause) (s : State) :
    (s.left f l cause).eng.notices.causes[f] &&& 0x040 =
      Cause.lost.bitIf (s.left f l cause).front.receivers[f].lossCondition :=
  Engine.syncConditions_lost ..

/-- The LOST cause after the acts that follow a leaving, while the front stays (R170). -/
theorem State.settle_lost {f : FeedId} {s : State} (hq : s.front.attention.quiet = true)
    (h : s.eng.notices.causes[f] &&& 0x040 = Cause.lost.bitIf s.front.receivers[f].lossCondition) :
    s.settle.eng.notices.causes[f] &&& 0x040 = Cause.lost.bitIf s.front.receivers[f].lossCondition := by
  rcases (State.settle_acted hq).lost f with hs | hs
  · rw [hs, h]
  · exact hs

theorem State.settle_opened {f : FeedId} {s : State} (hq : s.front.attention.quiet = true)
    (h : s.eng.opened[f] = none) : s.settle.eng.opened[f] = none := (State.settle_acted hq).opened f h

/-- LINK_LOSS reaches the RECORDING Live take when the record budget has room and no frame is open (R103). -/
theorem State.left_linkLoss {f : FeedId} {l : Link} {cause : LossCause} {s : State} {k : Take}
    (hk : s.eng.recordingTake f = some k) (ho : s.eng.opened[f] = none) (hb : s.eng.budget k.feed < 488) :
    s.eng.SameWaits (s.left f l cause).eng ∧ (s.left f l cause).eng.take? k.id =
      some { k with queue := joinQueue k.queue ⟨s.eng.nextSeq, .linkLoss s.front.refCount cause⟩ } := by
  have hset := State.setLink_asksOnly f l s
  have hclosed : (s.setLink f l).closeFrame f = s.setLink f l :=
    State.closeFrame_of_none (hset.opened_none ho)
  have hloss : (s.setLink f l).linkLoss f cause =
      (s.setLink f l).act fun x e => e.queueEvent k.id (.linkLoss x.refCount cause) := by
    unfold State.linkLoss
    rw [hset.sameWork.recordingTake, hk]
  have hfound : s.eng.take? k.id = some k := by
    obtain ⟨hlive, -⟩ := Option.filter_eq_some_iff.mp hk
    obtain ⟨m, -, hm⟩ := Option.bind_eq_some_iff.mp hlive
    have hid : k.id = m := by simpa using List.find?_some hm
    rw [hid, hm]
  have hcount : (s.setLink f l).front.refCount = s.front.refCount := by rw [State.setLink_front]; rfl
  have hseq : (s.setLink f l).eng.nextSeq = s.eng.nextSeq := by rw [hset]
  have hbudget : (s.setLink f l).eng.budget k.feed = s.eng.budget k.feed := by
    unfold Engine.budget Engine.feedRecords
    rw [hset.sameWork.takes]
  have hsync := State.sync_asksOnly f (((s.setLink f l).closeFrame f).linkLoss f cause)
  rw [hclosed, hloss] at hsync
  have hleft : s.left f l cause =
      ((s.setLink f l).act fun x e => e.queueEvent k.id (.linkLoss x.refCount cause)).sync f := by
    rw [← hloss, ← hclosed]; rfl
  rw [hleft]
  refine ⟨hset.sameWork.sameWaits.trans (.trans (Engine.queueEvent_sameWaits ..) hsync.sameWork.sameWaits), ?_⟩
  rw [hsync.sameWork.take?]
  refine (Engine.queueEvent_take ((hset.sameWork.take? _).trans hfound)).trans ?_
  rw [hbudget, if_pos (show s.eng.budget k.feed < eventPlaces from hb), Engine.numbered, hseq, hcount]

/-- What the feeds show once the link has left LOCKED. -/
theorem State.left_feeds {b s : State} {f : FeedId} {l : Link} (cause : LossCause) {timer : FeedTimer} {tally : Tally}
    (hb : b.front = (s.front.updTimer f fun _ => timer).updReceiver f fun r => { r with
      signal := l = .seeking, candidate := false, line := .empty, inHeader := r.inHeader && l = .seeking
      tally := tally }) :
    (∃ tally', (b.left f l cause).front.receivers[f] = { s.front.receivers[f] with
      signal := l = .seeking, candidate := false, line := .empty
      inHeader := s.front.receivers[f].inHeader && l = .seeking, link := l, tally := tally' }) ∧
    (b.left f l cause).front.attention = s.front.attention ∧ (b.left f l cause).front.refCount = s.front.refCount ∧
    ∀ g : FeedId, g ≠ f → (b.left f l cause).front.receivers[g] = s.front.receivers[g] ∧
      (b.left f l cause).front.timers[g] = s.front.timers[g] := by
  obtain ⟨dram, tally', hfront⟩ := State.left_front f l cause b
  rw [hfront, hb]
  refine ⟨⟨tally', (upd_same ..).trans ?_⟩, rfl, rfl, fun g hg =>
    ⟨(upd_other _ hg _).trans (upd_other _ hg _), upd_other _ hg _⟩⟩
  rw [Front.updReceiver_receivers, upd_same]
  rfl

/-- Settles O14. -/
theorem leavingLockedResult : Obligations.LeavingLockedResult := by
  intro f c l cause s hc he hs hl hw hq hwait
  have hnot : l ≠ .locked := by rcases hc with ⟨-, rfl, -⟩ | ⟨-, rfl, -⟩ <;> nofun
  obtain ⟨b, timer, tally, hexec, heng, hbf⟩ := exec_of_leaves hc he hs hl
  let u := b.left f l cause
  obtain ⟨⟨tally', hrec⟩, hatt, hcount, hother⟩ := State.left_feeds cause hbf
  have hquiet : u.front.attention.quiet = true := hatt ▸ hq
  rw [State.leaveLocked_eq, State.applyPending_of_none (by rw [hrec]; exact hw)] at hexec
  have hsettled : u.settle.front = u.front := State.settle_front_of_quiet hquiet
  have hlost := State.settle_lost hquiet (State.left_lost f l cause b)
  refine ⟨u.settle, hexec, ?_, ?_, ?_, State.settle_opened hquiet (State.left_opened f l cause b), ?_, fun g hg => ?_,
    fun hh => ?_, fun k hk ho hb => ?_⟩
  · rw [hsettled, hrec]
  · rw [hsettled, hrec]
  · rw [hsettled, hrec]
  · rw [hsettled]; exact hcount
  · rw [hsettled]; exact hother g hg
  · rw [hlost, hrec]
    simp [Receiver.lossCondition, hh, hnot, Cause.bitIf, Cause.bit, -Fin.getElem_fin]
  · obtain ⟨hsame, htake⟩ := State.left_linkLoss (l := l) (cause := cause) (heng ▸ hk) (heng ▸ ho) (heng ▸ hb)
    have hstill : u.settle = u :=
      State.settle_of_sameWaits (s := b) (by rw [hbf]; exact hq) (heng ▸ hwait) (by rw [hatt, hbf]; rfl) hsame
    rw [hstill, htake, heng, hbf]
    rfl

end Sys2Proof.Machine
end


section
/-! Pending settings become active: when the link leaves LOCKED, and at an accepted header (R21, R22, R31, R123). -/

namespace Sys2Proof.Machine

/-! ## A block becomes active -/

theorem State.applyDisabling_asksOnly (f : FeedId) (s : State) : s.eng.AsksOnly (s.applyBlock f .disabling).eng := by
  refine .trans ?_ (State.sync_asksOnly f _)
  exact .trans (State.setLink_asksOnly f .dark (s.onReceiver f Receiver.disabling)) (Engine.ask_asksOnly ..)

theorem State.takeSettings_acted (f : FeedId) (n : Settings) (s : State) (x : Front) :
    s.eng.Acted x (s.takeSettings f n).eng := (Engine.Acted.refl x s.eng).skipDownTo 96

/-- What a restart leaves of the engine, beside the causes it brings in line at its end. -/
theorem State.applyEnabling_of_restarts {f : FeedId} {n : Settings} {s : State}
    (h : s.front.receivers[f].restarts n = true) : ∃ u : State, s.applyBlock f (.enabling n) = u.sync f ∧
      u.eng.opened = (s.takeSettings f n).eng.opened ∧ u.eng.takes = (s.takeSettings f n).eng.takes ∧
      u.eng.places = (s.takeSettings f n).eng.places := by
  have hlink := State.setLink_asksOnly f s.front.receivers[f].enabledLink
    ((s.takeSettings f n).onReceiver f Receiver.enabling)
  refine ⟨((((s.takeSettings f n).onReceiver f Receiver.enabling).setLink f
    s.front.receivers[f].enabledLink).clearTimer f).clearCommitted f, ?_, ?_, ?_, ?_⟩
  · show s.applyEnabling f n = _
    rw [State.applyEnabling_eq, if_pos h]
  · simp only [State.clearCommitted, State.clearTimer, State.act, State.onFront, Engine.ask_opened]
    exact hlink.opened
  · simp only [State.clearCommitted, State.clearTimer, State.act, State.onFront, Engine.ask_takes]
    exact hlink.sameWork.takes
  · simp only [State.clearCommitted, State.clearTimer, State.act, State.onFront, Engine.ask_places]
    exact hlink.sameWork.places

theorem State.applyEnabling_of_same {f : FeedId} {n : Settings} {s : State}
    (h : s.front.receivers[f].restarts n = false) : s.applyBlock f (.enabling n) = s.takeSettings f n := by
  show s.applyEnabling f n = _
  rw [State.applyEnabling_eq, if_neg (by rw [h]; nofun)]

/-- A block that becomes active opens no frame. -/
theorem State.applyBlock_opened {f : FeedId} {s : State} (h : s.eng.opened[f] = none) (b : Block) :
    (s.applyBlock f b).eng.opened[f] = none := by
  cases b with
  | disabling => exact (s.applyDisabling_asksOnly f).opened_none h
  | enabling n =>
    have htaken : (s.takeSettings f n).eng.opened[f] = none := (s.takeSettings_acted f n s.front).opened f h
    cases hr : s.front.receivers[f].restarts n with
    | false => rw [State.applyEnabling_of_same hr]; exact htaken
    | true =>
      obtain ⟨u, happly, hopen, -, -⟩ := State.applyEnabling_of_restarts hr
      rw [happly]
      exact (State.sync_asksOnly f u).opened_none (by rw [hopen]; exact htaken)

/-- A block that clears the has-locked mark leaves no LOST cause. -/
theorem State.applyBlock_lost {f : FeedId} {s : State} {b : Block}
    (h : b = .disabling ∨ ∃ n, b = .enabling n ∧ s.front.receivers[f].restarts n = true) :
    (s.applyBlock f b).eng.notices.causes[f] &&& 0x040 =
      Cause.lost.bitIf (s.applyBlock f b).front.receivers[f].lossCondition := by
  rcases h with rfl | ⟨n, rfl, hr⟩
  · exact Engine.syncConditions_lost ..
  · obtain ⟨u, happly, -, -, -⟩ := State.applyEnabling_of_restarts hr
    rw [happly]
    exact Engine.syncConditions_lost ..

/-- Settings of the same format leave the LOST cause as its condition has it. -/
theorem State.applyEnabling_lost_of_same {f : FeedId} {n : Settings} {s : State}
    (hr : s.front.receivers[f].restarts n = false)
    (h : s.eng.notices.causes[f] &&& 0x040 = Cause.lost.bitIf s.front.receivers[f].lossCondition) :
    (s.applyBlock f (.enabling n)).eng.notices.causes[f] &&& 0x040 =
      Cause.lost.bitIf s.front.receivers[f].lossCondition := by
  rw [State.applyEnabling_of_same hr]
  rcases (s.takeSettings_acted f n s.front).lost f with hs | hs
  · rw [hs, h]
  · exact hs

/-! ## Pending settings when the link has left LOCKED -/

/-- The end of a step in which the pending block `b` became active in state `w` without an open frame: what is left of the
feed is what the block makes of it. -/
theorem State.settle_applyBlock {f : FeedId} {w : State} {b : Block} (hq : w.front.attention.quiet = true)
    (ho : w.eng.opened[f] = none) : (w.applyBlock f b).settle.front = w.front.applyBlock f b ∧
      (w.applyBlock f b).settle.eng.opened[f] = none ∧
      ((w.applyBlock f b).eng.notices.causes[f] &&& 0x040 =
          Cause.lost.bitIf (w.front.applyBlock f b).receivers[f].lossCondition →
        (w.applyBlock f b).settle.eng.notices.causes[f] &&& 0x040 =
          Cause.lost.bitIf (w.front.applyBlock f b).receivers[f].lossCondition) := by
  have hquiet : (w.applyBlock f b).front.attention.quiet = true := by
    rw [State.applyBlock_front, Front.applyBlock_attention]; exact hq
  refine ⟨?_, State.settle_opened hquiet (State.applyBlock_opened ho b), ?_⟩
  · rw [State.settle_front_of_quiet hquiet, State.applyBlock_front]
  · rw [← State.applyBlock_front]
    exact State.settle_lost hquiet

/-- The pending block becomes active when the link leaves LOCKED. -/
theorem pendingAppliedAtLeaving {f : FeedId} {m : Settings} {b : Block} {c : Instr} {l : Link} {cause : LossCause}
    {s : State} (hc : leavesLocked c f l cause s) (he : s.front.receivers[f].enabled = true)
    (hs : s.front.receivers[f].signal = true) (hl : s.front.receivers[f].link = .locked)
    (hm : s.front.receivers[f].active = some m) (hw : s.front.receivers[f].waiting = some b)
    (hq : s.front.attention.quiet = true) {differs : Settings → Prop}
    (hdiffers : ∀ n, differs n ↔ formatChanged (some m) n = true) :
    let r := s.front.receivers[f]
    let left : Receiver := { r with
      signal := l = .seeking, link := l, candidate := false, line := .empty, waiting := none
      inHeader := r.inHeader && l = .seeking }
    ∃ t, exec c s = .next t ∧ t.eng.opened[f] = none ∧
      (b = .disabling → t.front.timers[f] = ⟨[], none, false, none⟩ ∧ t.eng.notices.causes[f] &&& 0x040 = 0 ∧
        t.front.receivers[f] = { left with
          enabled := false, link := .dark, hasLocked := false, relock := none, inHeader := false
          tally := t.front.receivers[f].tally }) ∧
      (∀ n, b = .enabling n → t.front.reduce[f] = some n.reduceContext ∧
        (differs n → t.front.timers[f] = ⟨[], none, false, none⟩ ∧
          t.eng.notices.causes[f] &&& 0x040 = 0 ∧
          t.front.receivers[f] = { left with
            hasLocked := false, relock := none, active := some n, metadata := [], changed := []
            tally := ⟨0, 0, 0, 0⟩, expected := none }) ∧
        (¬differs n → (r.hasLocked = true → t.eng.notices.causes[f] &&& 0x040 = 0x040) ∧
          t.front.receivers[f] = { left with active := some n, tally := t.front.receivers[f].tally })) := by
  intro r left
  have hnot : l ≠ .locked := by rcases hc with ⟨-, rfl, -⟩ | ⟨-, rfl, -⟩ <;> nofun
  obtain ⟨v, timer, tally, hexec, heng, hvf⟩ := exec_of_leaves hc he hs hl
  obtain ⟨⟨tally', hrec⟩, hatt, -, -⟩ := State.left_feeds cause hvf
  let u := v.left f l cause
  let w := u.onReceiver f fun r => { r with waiting := none }
  have hwrec : w.front.receivers[f] = { left with tally := tally' } := by
    refine (upd_same ..).trans ?_
    rw [hrec]
  have hlost : w.eng.notices.causes[f] &&& 0x040 = Cause.lost.bitIf w.front.receivers[f].lossCondition := by
    rw [hwrec]
    refine (State.left_lost f l cause v).trans ?_
    rw [hrec]
    rfl
  have hpend : u.applyPending f = w.applyBlock f b := State.applyPending_of_some (by rw [hrec]; exact hw)
  rw [State.leaveLocked_eq, show (v.left f l cause).applyPending f = _ from hpend] at hexec
  have hweng : w.eng = u.eng := rfl
  have hwatt : w.front.attention = u.front.attention := rfl
  obtain ⟨hfront, hopen, hkeep⟩ := State.settle_applyBlock (b := b) (w := w) (f := f)
    (by rw [hwatt, hatt]; exact hq) (by rw [hweng]; exact State.left_opened f l cause v)
  have hrestarts : ∀ n, differs n ↔ w.front.receivers[f].restarts n = true := fun n => by
    rw [hdiffers, Receiver.restarts_of_enabled (by rw [hwrec]; exact he) (by rw [hwrec]; exact hm)]
  refine ⟨_, hexec, hopen, ?_, ?_⟩
  · rintro rfl
    obtain ⟨hfeed, htimer⟩ := Front.applyDisabling_feed f w.front
    rw [State.applyBlock_lost (.inl rfl), State.applyBlock_front] at hkeep
    rw [hkeep rfl, hfront, hfeed, htimer, hwrec]
    exact ⟨rfl, rfl, rfl⟩
  · rintro n rfl
    refine ⟨by rw [hfront]; exact Front.applyEnabling_reduce f n _, fun hd => ?_, fun hd => ?_⟩
    · have hr := (hrestarts n).mp hd
      obtain ⟨hfeed, htimer⟩ := Front.applyEnabling_feed_of_restarts hr
      rw [State.applyBlock_lost (.inr ⟨n, rfl, hr⟩), State.applyBlock_front] at hkeep
      rw [hkeep rfl, hfront, hfeed, htimer, hwrec]
      refine ⟨rfl, rfl, ?_⟩
      have hlink : ({ left with tally := tally' } : Receiver).enabledLink = l := by
        unfold Receiver.enabledLink
        rw [if_pos (show left.enabled = true from he)]
        rcases hc with ⟨-, rfl, -⟩ | ⟨-, rfl, -⟩ <;> rfl
      have hen : left.enabled = true := he
      rw [hlink]
      simp only [Receiver.enabling, hen]
      rfl
    · have hr := Bool.eq_false_iff.mpr (mt (hrestarts n).mpr hd)
      obtain ⟨hfeed, -⟩ := Front.applyEnabling_feed_of_same hr
      have hcond : (w.front.applyBlock f (.enabling n)).receivers[f].lossCondition =
          w.front.receivers[f].lossCondition := by rw [hfeed]; rfl
      rw [hcond, State.applyEnabling_lost_of_same hr hlost] at hkeep
      rw [hkeep rfl, hfront, hfeed, hwrec]
      refine ⟨fun hh => ?_, rfl⟩
      have hcause : ({ left with tally := tally' } : Receiver).lossCondition = true := by
        simp [Receiver.lossCondition, left, r, hh, hnot, -Fin.getElem_fin]
      rw [hcause]
      rfl

/-! ## Pending settings at an accepted header -/

/-- The judgement of a header changes the front in the feed's receiver alone. -/
theorem State.judgeHeader_front (f : FeedId) (h : HeaderFields) (p : Placed) (s : State) :
    ∃ g, (s.judgeHeader f h p).front = s.front.updReceiver f g := by
  unfold State.judgeHeader
  dsimp only
  split
  · split
    · exact ⟨id, (Front.updReceiver_self rfl).symm⟩
    · exact ⟨_, State.admitFrame_front f p s⟩
    · split
      · rw [State.admitFrame_front, State.lock_front, Front.updReceiver_updReceiver]
        exact ⟨_, rfl⟩
      · exact ⟨_, rfl⟩
  · exact ⟨_, rfl⟩

theorem Receiver.answered_eq (r : Receiver) (v : Verdict) : r.answered v =
    { r with tally := (r.answered v).tally, changed := (r.answered v).changed, relock := (r.answered v).relock } := by
  cases v <;> rfl

/-- A LOCKED link stays LOCKED at a header, whatever the header is (R4). -/
theorem State.judgeHeader_receiver_of_locked {f : FeedId} {s : State} (h : HeaderFields) (p : Placed)
    (hl : s.front.receivers[f].link = .locked) : ∃ tally changed relock, (s.judgeHeader f h p).front.receivers[f] =
      { s.front.receivers[f] with tally := tally, changed := changed, relock := relock } := by
  cases ha : h.agrees (s.front.settings f) with
  | true =>
    rw [State.judgeHeader_of_locked p ha hl, State.admitFrame_front, Front.updReceiver_receivers, upd_same,
      Receiver.answered_eq]
    exact ⟨_, _, _, rfl⟩
  | false =>
    rw [State.judgeHeader_of_mismatch p ha, State.mismatch_eq, State.onReceiver_front, Front.updReceiver_receivers,
      upd_same]
    refine ⟨(s.front.receivers[f].mismatch (s.recording f)).tally, s.front.receivers[f].changed,
      s.front.receivers[f].relock, ?_⟩
    unfold Receiver.mismatch
    rw [if_neg (by rw [hl]; nofun)]

/-- The takes keep their places, their numbers and their states. -/
structure Engine.SameStates (e e' : Engine) : Prop where
  places : e'.places = e.places
  states : (e'.takes.map fun t => (t.id, t.state)) = e.takes.map fun t => (t.id, t.state)

theorem Engine.SameStates.trans {a b c : Engine} (h : a.SameStates b) (k : b.SameStates c) : a.SameStates c :=
  ⟨k.places.trans h.places, k.states.trans h.states⟩

theorem Engine.SameStates.recording {e e' : Engine} (h : e.SameStates e') (f : FeedId) :
    (e'.recordingTake f).isSome = (e.recordingTake f).isSome := by
  have hfind : ∀ (e : Engine) n, ((e.takes.map fun t => (t.id, t.state)).find? fun p => p.1 == n) =
      (e.take? n).map fun t => (t.id, t.state) := fun e n => by rw [List.find?_map]; rfl
  have hstate : ∀ n, (e'.take? n).map (fun t => (t.id, t.state)) = (e.take? n).map fun t => (t.id, t.state) :=
    fun n => by rw [← hfind, ← hfind, h.states]
  have hrec : ∀ o : Option Take, (o.filter fun t => t.state = .recording).isSome =
      (o.map fun t => (t.id, t.state)).any fun p => p.2 = .recording := by
    intro o
    cases o with
    | none => rfl
    | some t => by_cases ht : t.state = .recording <;> simp [Option.filter, ht]
  unfold Engine.recordingTake Engine.liveTake
  rw [hrec, hrec, h.places]
  cases e.places[f].live with
  | none => rfl
  | some n => rw [Option.bind_some, Option.bind_some, hstate]

theorem Engine.updTake_sameStates (e : Engine) (t : Nat) {g : Take → Take}
    (hg : ∀ k, (g k).id = k.id ∧ (g k).state = k.state) : e.SameStates (e.updTake t g) := by
  refine ⟨rfl, ?_⟩
  rw [Engine.updTake_takes, List.map_map]
  refine List.map_congr_left fun k _ => ?_
  simp only [Function.comp]
  split
  · rw [(hg k).1, (hg k).2]
  · rfl

theorem Engine.updSlot_sameStates (e : Engine) (i : SlotId) (g : Slot → Slot) : e.SameStates (e.updSlot i g) := ⟨rfl, rfl⟩

theorem Engine.skipOldest_sameStates (f : FeedId) (e : Engine) : e.SameStates (e.skipOldest f) := by
  have hsettle : ∀ (i : SlotId) (e : Engine), e.SameStates (e.trySettle i) := by
    intro i e
    unfold Engine.trySettle
    split
    · exact ⟨rfl, rfl⟩
    · split
      · exact ⟨rfl, rfl⟩
      · exact (Engine.updSlot_sameStates e i _).trans (Engine.updTake_sameStates _ _ fun _ => ⟨by rfl, by rfl⟩)
  have hcheck : ∀ (i : SlotId) (e : Engine), e.SameStates (e.withdrawCheck i) := by
    intro i e
    unfold Engine.withdrawCheck
    split
    · split <;> exact ⟨rfl, rfl⟩
    · exact ⟨rfl, rfl⟩
  unfold Engine.skipOldest
  split
  · exact ⟨rfl, rfl⟩
  · rename_i i _
    exact (hcheck i e).trans ((Engine.updSlot_sameStates _ i _).trans (hsettle i _))

theorem Engine.skipDownTo_sameStates (n : Nat) (f : FeedId) (fuel : Nat) (e : Engine) :
    e.SameStates (e.skipDownTo n f fuel) := by
  induction fuel generalizing e with
  | zero => exact ⟨rfl, rfl⟩
  | succ fuel ih =>
    unfold Engine.skipDownTo
    split
    · exact (Engine.skipOldest_sameStates f e).trans (ih _)
    · exact ⟨rfl, rfl⟩

/-- Settings that become active leave takes recording that record. -/
theorem State.applyEnabling_recording {f : FeedId} {n : Settings} {s : State}
    (h : s.front.receivers[f].restarts n = true) :
    ((s.applyBlock f (.enabling n)).eng.recordingTake f).isSome = (s.eng.recordingTake f).isSome := by
  obtain ⟨u, happly, -, htakes, hplaces⟩ := State.applyEnabling_of_restarts h
  have hu : s.eng.SameStates u.eng :=
    (Engine.skipDownTo_sameStates _ f 96 s.eng).trans ⟨hplaces, by rw [htakes]; rfl⟩
  rw [happly, (State.sync_asksOnly f u).sameWork.recordingTake, hu.recording]

/-- FRAME_HEADER accepted while settings are pending. -/
theorem execFrameHeader_of_pending {f : FeedId} {b : Block} {chars : List Byte} {s : State}
    (he : s.front.receivers[f].enabled = true) (hs : s.front.receivers[f].signal = true)
    (hh : s.front.receivers[f].inHeader = true) (hw : s.front.receivers[f].waiting = some b) (hc : chars.length = 12)
    (hg : headerGood chars = true) :
    ∃ w : State, w.eng = s.eng ∧
      w.front = s.front.updReceiver f (fun r => { r with inHeader := false, waiting := none }) ∧
      w.front.receivers[f] = { s.front.receivers[f] with inHeader := false, waiting := none } ∧
      exec (.frameHeader f chars) s = .next (if (w.applyBlock f b).front.receivers[f].enabled then
        ((w.applyBlock f b).captured f (parseHeader chars)).judgeHeader f (parseHeader chars)
          ((w.applyBlock f b).place f (parseHeader chars)) else w.applyBlock f b).settle := by
  let a := s.onReceiver f fun r => { r with inHeader := false }
  have ha : a.front.receivers[f].waiting = some b := by
    rw [State.onReceiver_front, Front.updReceiver_receivers, upd_same]; exact hw
  refine ⟨a.onReceiver f fun r => { r with waiting := none }, rfl, ?_, ?_, ?_⟩
  · rw [State.onReceiver_onReceiver]; rfl
  · rw [State.onReceiver_onReceiver, State.onReceiver_front, Front.updReceiver_receivers, upd_same]
  · rw [execFrameHeader_of_inHeader he hs hh hc, if_pos hg, State.acceptHeader_eq, State.applyPending_of_some ha]

/-- The capture of a header in an emptied history (R28, R30). -/
theorem FeedTimer.capture_reset (n : Settings) (c : Count) :
    FeedTimer.reset.capture n c = ⟨[c], none, false, some (n.lossWindow * n.rate.pnom)⟩ := rfl

/-- The header that finds settings of another format pending: the link is SEEKING, and the header is the first of the new
format or a FORMAT_MISMATCH. -/
theorem State.judgeHeader_of_restarted {f : FeedId} {n : Settings} {chars : List Byte} {w : State}
    (he : w.front.receivers[f].enabled = true) (hl : w.front.receivers[f].link = .locked)
    (hr : w.front.receivers[f].restarts n = true) :
    let a := w.applyBlock f (.enabling n)
    let fits : Bool := parseRate (fieldAt chars 0 1) = some n.rate ∧ fieldAt chars 2 2 = n.w ∧ fieldAt chars 4 2 = n.h
    let label := (parseHeader chars).label
    let day := if (parseHeader chars).tcPresent = true ∧ n.rate.valid label = true then n.rate.dayNumber label else 0
    let t := (a.captured f (parseHeader chars)).judgeHeader f (parseHeader chars) (a.place f (parseHeader chars))
    t.front.timers[f] = ⟨[w.front.refCount], none, false, some (n.lossWindow * n.rate.pnom)⟩ ∧
      t.front.receivers[f] = { w.front.receivers[f] with
        link := .seeking, candidate := fits, hasLocked := false, relock := none, active := some n
        metadata := [], changed := []
        tally := ⟨0, if !fits && (w.eng.recordingTake f).isSome then 1 else 0, 0, 0⟩
        expected := some ((day + 1) % n.rate.dayCount) } := by
  intro a fits label day t
  let c := a.captured f (parseHeader chars)
  have haf : a.front = w.front.applyBlock f (.enabling n) := State.applyBlock_front f w _
  obtain ⟨hfeed, htimer⟩ := Front.applyEnabling_feed_of_restarts hr
  have hlink : w.front.receivers[f].enabledLink = .seeking := by
    unfold Receiver.enabledLink
    rw [if_pos he, hl]
    rfl
  rw [hlink, ← haf] at hfeed
  rw [← haf] at htimer
  have haset : a.front.settings f = n := Front.settings_of_active (by rw [hfeed]; rfl)
  have hday : (a.place f (parseHeader chars)).tc.day = day := by
    rw [State.place_eq haset, hfeed]
    simp only [day, label]
    split <;> rfl
  have hcrec : c.front.receivers[f] = { a.front.receivers[f] with expected := some ((day + 1) % n.rate.dayCount) } := by
    rw [State.captured_receiver, haset, hday]
    rfl
  have hcset : c.front.settings f = n := (State.captured_settings f _ a).trans haset
  have hctime : c.front.timers[f] = ⟨[w.front.refCount], none, false, some (n.lossWindow * n.rate.pnom)⟩ := by
    rw [State.captured_timer, haset, htimer, haf, Front.applyBlock_refCount, FeedTimer.capture_reset]
  have hfits : (parseHeader chars).agrees n = fits := by
    rw [Bool.eq_iff_iff, HeaderFields.agrees_iff]
    exact decide_eq_true_iff.symm
  have hrecording : c.recording f = (w.eng.recordingTake f).isSome := by
    unfold State.recording
    rw [(State.captured_asksOnly f _ a).sameWork.recordingTake]
    exact State.applyEnabling_recording hr
  refine ⟨?_, ?_⟩
  · obtain ⟨g, hg⟩ := State.judgeHeader_front f (parseHeader chars) (a.place f (parseHeader chars)) c
    rw [show t.front = _ from hg]
    exact hctime
  · have hcan : c.front.receivers[f].candidate = false := by rw [hcrec, hfeed]; rfl
    have hseek : c.front.receivers[f].link = .seeking := by rw [hcrec, hfeed]
    cases hf : fits with
    | true =>
      have ht : t = c.onReceiver f fun r => { r with candidate := true } := by
        show c.judgeHeader f _ _ = _
        rw [State.judgeHeader_of_seeking _ (by rw [hcset, hfits, hf]) hseek, hcan, if_neg (by simp)]
      rw [ht, State.onReceiver_front, Front.updReceiver_receivers, upd_same, hcrec, hfeed]
      simp [Receiver.enabling, he, Tally.zero, -Fin.getElem_fin]
    | false =>
      have ht : t = c.onReceiver f (Receiver.mismatch (w.eng.recordingTake f).isSome) := by
        rw [← hrecording]
        exact State.judgeHeader_of_mismatch _ (by rw [hcset, hfits, hf])
      rw [ht, State.onReceiver_front, Front.updReceiver_receivers, upd_same, hcrec, hfeed]
      cases (w.eng.recordingTake f).isSome <;>
        simp [Receiver.enabling, Receiver.mismatch, he, Tally.zero, bump, -Fin.getElem_fin]

/-- The header that finds settings of the same format pending: the link stays LOCKED. -/
theorem State.judgeHeader_of_same {f : FeedId} {n : Settings} (h : HeaderFields) {w : State}
    (hl : w.front.receivers[f].link = .locked) (hr : w.front.receivers[f].restarts n = false) :
    let a := w.applyBlock f (.enabling n)
    let t := (a.captured f h).judgeHeader f h (a.place f h)
    t.front.timers[f].deadline = some (n.lossWindow * n.rate.pnom) ∧
      ∃ expected tally changed relock, t.front.receivers[f] = { w.front.receivers[f] with
        active := some n, expected := expected, tally := tally, changed := changed, relock := relock } := by
  intro a t
  have haf : a.front = w.front.applyBlock f (.enabling n) := State.applyBlock_front f w _
  obtain ⟨hfeed, -⟩ := Front.applyEnabling_feed_of_same hr
  rw [← haf] at hfeed
  have haset : a.front.settings f = n := Front.settings_of_active (by rw [hfeed])
  have hcrec := State.captured_receiver f h a
  obtain ⟨g, hg⟩ := State.judgeHeader_front f h (a.place f h) (a.captured f h)
  obtain ⟨tally, changed, relock, hrec⟩ := State.judgeHeader_receiver_of_locked (s := a.captured f h) h (a.place f h)
    (by rw [hcrec, hfeed]; exact hl)
  refine ⟨?_, some ((a.front.settings f).rate.nextDay (a.place f h).tc.day), tally, changed, relock, ?_⟩
  · rw [show t.front = _ from hg, Front.updReceiver_timers, State.captured_timer, FeedTimer.capture_deadline, haset]
  · rw [show t.front.receivers[f] = _ from hrec, hcrec, hfeed]

/-- The pending block becomes active at an accepted header. -/
theorem pendingAppliedAtHeader {f : FeedId} {m : Settings} {b : Block} {chars : List Byte} {s : State}
    (he : s.front.receivers[f].enabled = true) (hs : s.front.receivers[f].signal = true)
    (hl : s.front.receivers[f].link = .locked) (hm : s.front.receivers[f].active = some m)
    (hw : s.front.receivers[f].waiting = some b) (hq : s.front.attention.quiet = true)
    (hh : s.front.receivers[f].inHeader = true) (hc : chars.length = 12) (hg : headerGood chars = true)
    {differs : Settings → Prop} (hdiffers : ∀ n, differs n ↔ formatChanged (some m) n = true) :
    let r := s.front.receivers[f]
    ∃ t, exec (.frameHeader f chars) s = .next t ∧
      (b = .disabling → t.front.timers[f] = ⟨[], none, false, none⟩ ∧
        t.front.receivers[f] = { r with
          inHeader := false, enabled := false, link := .dark, candidate := false, hasLocked := false, relock := none
          waiting := none, line := .empty } ∧
        (s.eng.busyWaiting = true → t.eng.takes = s.eng.takes ∧ t.eng.slots = s.eng.slots ∧
          t.eng.opened = s.eng.opened ∧ t.eng.port.reads = s.eng.port.reads)) ∧
      (∀ n, b = .enabling n → t.front.reduce[f] = some n.reduceContext ∧
        (differs n →
          let fits : Bool :=
            parseRate (fieldAt chars 0 1) = some n.rate ∧ fieldAt chars 2 2 = n.w ∧ fieldAt chars 4 2 = n.h
          let label := (parseHeader chars).label
          let day :=
            if (parseHeader chars).tcPresent = true ∧ n.rate.valid label = true then n.rate.dayNumber label else 0
          t.front.timers[f] = ⟨[s.front.refCount], none, false, some (n.lossWindow * n.rate.pnom)⟩ ∧
          t.front.receivers[f] = { r with
            inHeader := false, link := .seeking, candidate := fits, hasLocked := false, relock := none, active := some n
            waiting := none, metadata := [], changed := []
            tally := ⟨0, if !fits && (s.eng.recordingTake f).isSome then 1 else 0, 0, 0⟩
            expected := some ((day + 1) % n.rate.dayCount) }) ∧
        (¬differs n → t.front.timers[f].deadline = some (n.lossWindow * n.rate.pnom) ∧
          t.front.receivers[f].enabled = true ∧ t.front.receivers[f].link = .locked ∧
          t.front.receivers[f].active = some n ∧ t.front.receivers[f].waiting = none ∧
          t.front.receivers[f].metadata = r.metadata)) := by
  intro r
  obtain ⟨w, hweng, hwf, hwrec, hexec⟩ := execFrameHeader_of_pending he hs hh hw hc hg
  have hwq : w.front.attention.quiet = true := by rw [hwf]; exact hq
  have hwe : w.front.receivers[f].enabled = true := by rw [hwrec]; exact he
  have hwl : w.front.receivers[f].link = .locked := by rw [hwrec]; exact hl
  have hcount : w.front.refCount = s.front.refCount := by rw [hwf]; rfl
  have haq : (w.applyBlock f b).front.attention.quiet = true := by
    rw [State.applyBlock_front, Front.applyBlock_attention]; exact hwq
  cases b with
  | disabling =>
    obtain ⟨hfeed, htimer⟩ := Front.applyDisabling_feed f w.front
    rw [← State.applyBlock_front] at hfeed htimer
    rw [hfeed, if_neg (by simp [Receiver.disabling])] at hexec
    refine ⟨_, hexec, fun _ => ⟨?_, ?_, fun hwait => ?_⟩, nofun⟩
    · rw [State.settle_front_of_quiet haq, htimer]; rfl
    · rw [State.settle_front_of_quiet haq, hfeed, hwrec]; rfl
    · have hasks := hweng ▸ State.applyDisabling_asksOnly f w
      rw [State.settle_of_sameWaits (s := s) hq hwait
        (by rw [State.applyBlock_front, Front.applyBlock_attention, hwf]; rfl) hasks.sameWork.sameWaits]
      exact ⟨hasks.sameWork.takes, hasks.sameWork.slots, hasks.opened, hasks.reads⟩
  | enabling n =>
    have hrestarts : differs n ↔ w.front.receivers[f].restarts n = true := by
      rw [hdiffers, Receiver.restarts_of_enabled hwe (by rw [hwrec]; exact hm)]
    have hen : (w.applyBlock f (.enabling n)).front.receivers[f].enabled = true := by
      rw [State.applyBlock_front]
      cases hr : w.front.receivers[f].restarts n with
      | true => rw [(Front.applyEnabling_feed_of_restarts hr).1]; rfl
      | false => rw [(Front.applyEnabling_feed_of_same hr).1]; exact hwe
    rw [if_pos hen] at hexec
    let a := w.applyBlock f (.enabling n)
    let v := (a.captured f (parseHeader chars)).judgeHeader f (parseHeader chars) (a.place f (parseHeader chars))
    obtain ⟨g, hgf⟩ := State.judgeHeader_front f (parseHeader chars) (a.place f (parseHeader chars))
      (a.captured f (parseHeader chars))
    have hsettled : v.settle.front = v.front := State.settle_front_of_quiet
      (by rw [hgf, Front.updReceiver_attention, State.captured_attention]; exact haq)
    refine ⟨v.settle, hexec, nofun, fun n' hn' => ?_⟩
    cases hn'
    rw [hsettled]
    refine ⟨?_, fun hd => ?_, fun hd => ?_⟩
    · rw [hgf, Front.updReceiver_reduce, State.captured_front]
      show (w.applyBlock f _).front.reduce[f] = _
      rw [State.applyBlock_front]
      exact Front.applyEnabling_reduce f n _
    · intro fits label day
      obtain ⟨htimer, hrec⟩ := State.judgeHeader_of_restarted (chars := chars) hwe hwl (hrestarts.mp hd)
      rw [hwrec, hweng] at hrec
      rw [hcount] at htimer
      exact ⟨htimer, hrec⟩
    · obtain ⟨hdeadline, expected, tally, changed, relock, hrec⟩ :=
        State.judgeHeader_of_same (parseHeader chars) hwl
          (Bool.eq_false_iff.mpr (mt hrestarts.mpr hd))
      rw [hrec, hwrec]
      exact ⟨hdeadline, he, hl, rfl, rfl, rfl⟩

/-- Settles O17. -/
theorem pendingSettingsApplied : Obligations.PendingSettingsApplied := by
  intro f m b s he hs hl hm hw hq r differs
  have hdiffers : ∀ n, differs n ↔ formatChanged (some m) n = true := fun n => formatChanged_iff.symm
  refine ⟨fun c l hc => ?_, fun chars hh hlen hg => pendingAppliedAtHeader he hs hl hm hw hq hh hlen hg hdiffers⟩
  obtain ⟨cause, hleaves⟩ : ∃ cause, leavesLocked c f l cause s := by
    rcases hc with ⟨hc, hl⟩ | ⟨hc, hl, hd⟩
    · exact ⟨.dark, .inl ⟨hc, hl, rfl⟩⟩
    · exact ⟨.deadline, .inr ⟨hc, hl, rfl, hd⟩⟩
  exact pendingAppliedAtLeaving hleaves he hs hl hm hw hq hdiffers

end Sys2Proof.Machine
end


section
/-! A Frame Header's start closes the open frame (R15 to R17, R57, R59, R124 to R126): the frames that wait for browse, and
what a skip of the oldest of them leaves. -/

namespace Sys2Proof.Machine

/-! ## Waiting frames -/

/-- The waiting frames of a feed are those of its held slots whose frame waits. -/
theorem Engine.waiting_eq (e : Engine) (f : FeedId) :
    e.waiting f = e.held[f].filter fun i => e.slots[i].any e.waits := by
  unfold Engine.waiting Engine.heldSlots
  induction e.held[f] with
  | nil => rfl
  | cons i l ih =>
    cases h : e.slots[i] with
    | none => simpa [h, List.filterMap_cons, -Fin.getElem_fin] using ih
    | some s =>
      cases hw : e.waits s <;> simpa [h, hw, List.filterMap_cons, -Fin.getElem_fin] using ih

/-- Whether a frame waits is decided by its slot and its take's browse enable. -/
theorem Engine.waits_congr {e e' : Engine}
    (h : ∀ n, (e'.take? n).map (·.browseOn) = (e.take? n).map (·.browseOn)) (s : Slot) : e'.waits s = e.waits s := by
  have hany : ∀ o : Option Take, o.any (·.browseOn) = (o.map (·.browseOn)).any id := fun o => by cases o <;> rfl
  unfold Engine.waits
  rw [hany, hany, h]

theorem Engine.withdrawCheck_of_ne {e : Engine} {i : SlotId} (h : e.reducer.check.map (·.1) ≠ some i) :
    e.withdrawCheck i = e := by
  unfold Engine.withdrawCheck
  split
  · rename_i j st hc
    rw [if_neg (fun hj => h (by rw [hc, hj]; rfl))]
  · rfl

/-- A change of takes that keeps their numbers and their browse enables. -/
theorem Engine.browseOn_updTake (e : Engine) (t n : Nat) {g : Take → Take}
    (hg : ∀ k, (g k).id = k.id ∧ (g k).browseOn = k.browseOn) :
    ((e.updTake t g).take? n).map (·.browseOn) = (e.take? n).map (·.browseOn) := by
  rw [Engine.take?_updTake e t n g fun k => (hg k).1, Option.map_map]
  cases e.take? n with
  | none => rfl
  | some k =>
    simp only [Option.map_some, Function.comp]
    split
    · rw [(hg k).2]
    · rfl

/-- What an attempt to settle a frame leaves: the blocks' work, the takes' browse enables, and of the slots all but a
READY one's state. -/
theorem Engine.trySettle_keeps (i : SlotId) (e : Engine) : e.SameWaits (e.trySettle i) ∧
    (e.trySettle i).held = e.held ∧
    (∀ n, ((e.trySettle i).take? n).map (·.browseOn) = (e.take? n).map (·.browseOn)) ∧
    (∀ j, j ≠ i → (e.trySettle i).slots[j] = e.slots[j]) ∧
    ((e.trySettle i).slots[i]).map (·.browse) = (e.slots[i]).map (·.browse) := by
  unfold Engine.trySettle
  split
  · exact ⟨.refl e, rfl, fun _ => rfl, fun _ _ => rfl, rfl⟩
  · split
    · exact ⟨.refl e, rfl, fun _ => rfl, fun _ _ => rfl, rfl⟩
    · have hslot : ∀ g, e.SameWaits (e.updSlot i g) := fun _ => ⟨rfl, rfl, rfl, rfl, rfl⟩
      refine ⟨(hslot _).trans (Engine.updTake_sameWaits _ _ fun _ => by rfl), rfl, fun n => ?_, fun j hj => ?_, ?_⟩
      · exact Engine.browseOn_updTake (e.updSlot i _) _ n fun _ => ⟨by rfl, by rfl⟩
      · exact upd_other _ hj _
      · refine (congrArg (Option.map Slot.browse) (upd_same ..)).trans ?_
        rw [Option.map_map]
        rfl

/-- What a browse outcome leaves, and what it makes of its frame's slot. -/
theorem Engine.decideBrowse_keeps (i : SlotId) (o : BrowseOutcome) (e : Engine) : e.SameWaits (e.decideBrowse i o) ∧
    (e.decideBrowse i o).held = e.held ∧
    (∀ n, ((e.decideBrowse i o).take? n).map (·.browseOn) = (e.take? n).map (·.browseOn)) ∧
    (∀ j, j ≠ i → (e.decideBrowse i o).slots[j] = e.slots[j]) ∧
    ((e.decideBrowse i o).slots[i]).map (·.browse) = (e.slots[i]).map fun _ => .decided o := by
  obtain ⟨hwaits, hheld, htake, hother, hself⟩ :=
    Engine.trySettle_keeps i (e.updSlot i fun s => { s with browse := .decided o })
  refine ⟨.trans ?_ hwaits, hheld, htake, fun j hj => (hother j hj).trans (upd_other _ hj _), hself.trans ?_⟩
  · exact ⟨rfl, rfl, rfl, rfl, rfl⟩
  · refine (congrArg (Option.map Slot.browse) (upd_same ..)).trans ?_
    rw [Option.map_map]
    rfl

/-- A frame with a browse outcome waits no longer, and the others wait as before. -/
theorem Engine.decideBrowse_waiting (i : SlotId) (o : BrowseOutcome) (e : Engine) (f : FeedId) :
    (e.decideBrowse i o).waiting f = (e.waiting f).filter fun j => j ≠ i := by
  obtain ⟨-, hheld, htake, hother, hself⟩ := Engine.decideBrowse_keeps i o e
  rw [Engine.waiting_eq, Engine.waiting_eq, hheld, List.filter_filter]
  refine List.filter_congr fun j _ => ?_
  by_cases hj : j = i
  · subst hj
    rw [decide_eq_false (not_not.mpr rfl), Bool.false_and]
    cases hs : (e.decideBrowse j o).slots[j] with
    | none => rfl
    | some s =>
      rw [hs] at hself
      obtain ⟨s', -, hb⟩ := Option.map_eq_some_iff.mp hself.symm
      simp [Engine.waits, ← hb]
  · rw [hother j hj, decide_eq_true hj, Bool.true_and]
    cases e.slots[j] with
    | none => rfl
    | some s => exact Engine.waits_congr htake s

/-! ## Skips at the lag limit -/

/-- The oldest waiting frame is skipped when no room check stands in its way. -/
theorem Engine.skipOldest_of_head {f : FeedId} {e : Engine} {j : SlotId} {rest : List SlotId}
    (hw : e.waiting f = j :: rest) (hc : e.reducer.check.map (·.1) ≠ some j) :
    e.skipOldest f = e.decideBrowse j .skippedLate := by
  unfold Engine.skipOldest
  rw [hw, List.head?_cons]
  dsimp only
  rw [Engine.withdrawCheck_of_ne hc]

theorem Engine.skipDownTo_of_le {n : Nat} {f : FeedId} {e : Engine} (h : (e.waiting f).length ≤ n) (fuel : Nat) :
    e.skipDownTo n f fuel = e := by
  cases fuel with
  | zero => rfl
  | succ fuel => exact if_neg (by omega)

/-- All but the last `n` members of a filtered list are among all but the last `n` members of the list. -/
theorem mem_take_of_filter {α : Type} (p : α → Bool) {n : Nat} {l : List α} {x : α}
    (hx : x ∈ (l.filter p).take ((l.filter p).length - n)) : x ∈ l.take (l.length - n) := by
  have hsplit : l.filter p = (l.take (l.length - n)).filter p ++ (l.drop (l.length - n)).filter p := by
    rw [← List.filter_append, List.take_append_drop]
  have hlast : ((l.drop (l.length - n)).filter p).length ≤ n :=
    (List.length_filter_le _ _).trans (by rw [List.length_drop]; omega)
  rw [hsplit, List.length_append, List.take_append_of_le_length (by omega)] at hx
  exact (List.mem_filter.mp (List.mem_of_mem_take hx)).1

/-- Skips of frames that no room check waits for leave the blocks' work, the held lists and every slot that was not
waiting. -/
theorem Engine.skipDownTo_keeps {n : Nat} {f : FeedId} (fuel : Nat) {e : Engine}
    (hc : ∀ j ∈ (e.waiting f).take ((e.waiting f).length - n), e.reducer.check.map (·.1) ≠ some j) :
    e.SameWaits (e.skipDownTo n f fuel) ∧ (e.skipDownTo n f fuel).held = e.held ∧
      ∀ i, i ∉ e.waiting f → (e.skipDownTo n f fuel).slots[i] = e.slots[i] := by
  induction fuel generalizing e with
  | zero => exact ⟨.refl e, rfl, fun _ _ => rfl⟩
  | succ fuel ih =>
    by_cases hn : n < (e.waiting f).length
    · obtain ⟨j, rest, hw⟩ := List.exists_cons_of_length_pos (Nat.zero_lt_of_lt hn)
      have hhead : e.reducer.check.map (·.1) ≠ some j := hc j (by
        rw [hw] at hn ⊢
        rw [List.length_cons] at hn ⊢
        rw [show rest.length + 1 - n = rest.length - n + 1 by omega, List.take_succ_cons]
        exact List.mem_cons_self)
      have hstep : e.skipDownTo n f (fuel + 1) = (e.decideBrowse j .skippedLate).skipDownTo n f fuel := by
        rw [Engine.skipDownTo, if_pos hn, Engine.skipOldest_of_head hw hhead]
      obtain ⟨hwaits, hheld, -, hother, -⟩ := Engine.decideBrowse_keeps j .skippedLate e
      have hnext : (e.decideBrowse j .skippedLate).waiting f = (e.waiting f).filter fun i => i ≠ j :=
        Engine.decideBrowse_waiting j .skippedLate e f
      obtain ⟨hw', hh', hs'⟩ := ih (e := e.decideBrowse j .skippedLate) (fun i hi => by
        rw [hwaits.reducer]
        rw [hnext] at hi
        exact hc i (mem_take_of_filter _ hi))
      rw [hstep]
      refine ⟨hwaits.trans hw', hh'.trans hheld, fun i hi => ?_⟩
      rw [hs' i (by rw [hnext]; exact fun h => hi (List.mem_filter.mp h).1),
        hother i (fun h => hi (by rw [hw, h]; exact List.mem_cons_self))]
    · rw [Engine.skipDownTo_of_le (by omega)]
      exact ⟨.refl e, rfl, fun _ _ => rfl⟩

/-- With one waiting frame too many, the oldest alone is skipped. -/
theorem Engine.skipDownTo_of_one {n : Nat} {f : FeedId} (fuel : Nat) {e : Engine} {j : SlotId} {rest : List SlotId}
    (hw : e.waiting f = j :: rest) (hn : rest.length = n) (hc : e.reducer.check.map (·.1) ≠ some j) :
    e.skipDownTo n f (fuel + 1) = e.decideBrowse j .skippedLate := by
  have hnext : ((e.decideBrowse j .skippedLate).waiting f).length ≤ n := by
    rw [Engine.decideBrowse_waiting, hw, List.filter_cons_of_neg (by simp)]
    exact (List.length_filter_le _ _).trans hn.le
  unfold Engine.skipDownTo
  rw [if_pos (by rw [hw, List.length_cons]; omega), Engine.skipOldest_of_head hw hc, Engine.skipDownTo_of_le hnext]

/-! ## The frame joins the waiting frames -/

/-- The close of a frame that joins the waiting frames. -/
theorem Engine.frameReady_of_joins {x : Front} {f : FeedId} {i : SlotId} {e : Engine} {slot : Slot} {k : Take}
    (padded : Bool) (concealed : Nat) (hs : e.slots[i] = some slot) (hk : e.take? slot.take = some k)
    (hon : k.browseOn = true) (hb : slot.browse = .undecided) :
    e.frameReady x f i padded concealed = Engine.updSlot (Engine.skipDownTo (x.lag f - 1) f 96
      { e with opened := upd e.opened f fun _ => none }) i (Slot.closed padded concealed true) := by
  have hbrowse : ((e.slots[i].bind fun s => Engine.take? { e with opened := upd e.opened f fun _ => none } s.take).map
      (·.browseOn)).getD false = true := by
    rw [hs, Option.bind_some]
    exact (congrArg (fun o => (Option.map Take.browseOn o).getD false) hk).trans hon
  have hjoins : (e.slots[i].any fun s => s.browse == .undecided) = true := by rw [hs]; simp [hb]
  unfold Engine.frameReady
  dsimp only
  rw [hbrowse, hjoins]
  rfl

end Sys2Proof.Machine
end


section
/-! FRAME_HEADER_START with an open frame (R3, R15 to R17, R57, R59, R124, R125): the frame that does not wait for browse,
the one that joins the waiting frames, and the empty one. -/

namespace Sys2Proof.Machine

/-- The part once the header has started: the line in progress is cut off. -/
def State.startHeader (f : FeedId) (s : State) : State :=
  s.onReceiver f fun r => { r with line := .empty, inHeader := true }

theorem State.startHeader_settings (f : FeedId) (s : State) :
    (s.startHeader f).front.settings f = s.front.settings f := by
  unfold Front.settings State.startHeader
  rw [State.onReceiver_front, Front.updReceiver_receivers, upd_same]
  rfl

theorem execFrameHeaderStart_eq {f : FeedId} {s : State} (he : s.front.receivers[f].enabled = true)
    (hs : s.front.receivers[f].signal = true) (hh : s.front.receivers[f].inHeader = false) :
    exec (.frameHeaderStart f) s = .next ((s.startHeader f).closeFrame f).settle := by
  show Host.Outcome.next (s.symbol f _).settle = _
  rw [State.symbol_of_listens he hs, State.cutHeader_of_none hh]
  rfl

/-- The slot that a frame opens in is FILLING, so it is not among the waiting frames. -/
theorem Engine.not_mem_waiting {e : Engine} {f : FeedId} {i : SlotId} {slot : Slot} (hs : e.slots[i] = some slot)
    (hf : slot.state = .filling) : i ∉ e.waiting f := by
  rw [Engine.waiting_eq]
  intro h
  have := (List.mem_filter.mp h).2
  rw [hs] at this
  simp [Engine.waits, hf] at this

/-- What the close of a frame that joins the waiting frames leaves, when no room check waits for a frame to be skipped. -/
theorem Engine.frameReady_joins_keeps {x : Front} {f : FeedId} {i : SlotId} {e : Engine} {slot : Slot} {k : Take}
    (padded : Bool) (concealed : Nat) (hs : e.slots[i] = some slot) (hf : slot.state = .filling)
    (hk : e.take? slot.take = some k) (hon : k.browseOn = true) (hb : slot.browse = .undecided)
    (hc : ∀ j ∈ (e.waiting f).take ((e.waiting f).length + 1 - x.lag f), e.reducer.check.map (·.1) ≠ some j) :
    e.SameWaits (e.frameReady x f i padded concealed) ∧ (e.frameReady x f i padded concealed).held = e.held ∧
      (e.frameReady x f i padded concealed).slots[i] = some (slot.closed padded concealed true) := by
  let closed : Engine := { e with opened := upd e.opened f fun _ => none }
  have hclosed : ∀ j ∈ (closed.waiting f).take ((closed.waiting f).length - (x.lag f - 1)),
      closed.reducer.check.map (·.1) ≠ some j := fun j hj => by
    refine hc j ?_
    have hfew : j ∈ (e.waiting f).take ((e.waiting f).length - (x.lag f - 1)) := hj
    exact (List.take_prefix_take_left (by omega)).subset hfew
  obtain ⟨hwaits, hheld, hslots⟩ := Engine.skipDownTo_keeps 96 hclosed
  rw [Engine.frameReady_of_joins padded concealed hs hk hon hb]
  refine ⟨.trans (b := closed) ⟨rfl, rfl, rfl, rfl, rfl⟩ (hwaits.trans ⟨rfl, rfl, rfl, rfl, rfl⟩), hheld, ?_⟩
  refine (upd_same ..).trans ?_
  rw [hslots i (Engine.not_mem_waiting (e := closed) hs hf), show closed.slots[i] = some slot from hs]
  rfl

/-- Below the lag limit no other frame changes. -/
theorem Engine.frameReady_joins_below {x : Front} {f : FeedId} {i : SlotId} {e : Engine} {slot : Slot} {k : Take}
    (padded : Bool) (concealed : Nat) (hs : e.slots[i] = some slot) (hk : e.take? slot.take = some k)
    (hon : k.browseOn = true) (hb : slot.browse = .undecided) (hlag : (e.waiting f).length < x.lag f) :
    (e.frameReady x f i padded concealed).takes = e.takes ∧
      ∀ j, j ≠ i → (e.frameReady x f i padded concealed).slots[j] = e.slots[j] := by
  let closed : Engine := { e with opened := upd e.opened f fun _ => none }
  have hle : (closed.waiting f).length ≤ x.lag f - 1 := Nat.le_sub_one_of_lt hlag
  rw [Engine.frameReady_of_joins padded concealed hs hk hon hb, Engine.skipDownTo_of_le hle]
  exact ⟨rfl, fun j hj => upd_other _ hj _⟩

/-- A frame in the newest held slot joins the end of the waiting frames when it closes with its browse outcome open. -/
theorem Engine.updSlot_closed_waiting {e : Engine} {f : FeedId} {i : SlotId} {slot : Slot} {older : List SlotId}
    (padded : Bool) (concealed : Nat) (hs : e.slots[i] = some slot) (hf : slot.state = .filling)
    (hk : (e.take? slot.take).map (·.browseOn) = some true) (hb : slot.browse = .undecided)
    (hheld : e.held[f] = older ++ [i]) (hnodup : (e.held[f]).Nodup) :
    (e.updSlot i (Slot.closed padded concealed true)).waiting f = e.waiting f ++ [i] := by
  have hold : ∀ l ∈ older, l ≠ i := by
    rintro l hl rfl
    rw [hheld, List.nodup_append] at hnodup
    obtain ⟨-, -, hne⟩ := hnodup
    exact hne l hl l (List.mem_singleton_self l) rfl
  have hopen : (e.slots[i].any e.waits) = false := by rw [hs]; simp [Engine.waits, hf]
  have hclosed : (e.updSlot i (Slot.closed padded concealed true)).slots[i].any
      (e.updSlot i (Slot.closed padded concealed true)).waits = true := by
    have hslot : (e.updSlot i (Slot.closed padded concealed true)).slots[i] =
        some (slot.closed padded concealed true) := (upd_same ..).trans (by rw [hs]; rfl)
    obtain ⟨k', hk', hon⟩ := Option.map_eq_some_iff.mp hk
    have htake : (e.updSlot i (Slot.closed padded concealed true)).take? slot.take = some k' := hk'
    rw [hslot]
    simp [Engine.waits, Slot.closed, hb, htake, hon]
  rw [Engine.waiting_eq, Engine.waiting_eq, Engine.updSlot_held, hheld, List.filter_append, List.filter_append]
  simp only [List.filter_cons, hclosed, hopen, if_true, List.filter_nil, List.append_nil, Bool.false_eq_true, if_false]
  congr 1
  refine List.filter_congr fun l hl => ?_
  rw [show (e.updSlot i (Slot.closed padded concealed true)).slots[l] = e.slots[l] from upd_other _ (hold l hl) _]
  rfl

/-- At the lag limit the oldest waiting frame is skipped, and the closing frame becomes the newest. -/
theorem Engine.frameReady_joins_at {x : Front} {f : FeedId} {i j : SlotId} {e : Engine} {slot : Slot} {k : Take}
    {rest older : List SlotId} (padded : Bool) (concealed : Nat) (hs : e.slots[i] = some slot)
    (hf : slot.state = .filling) (hk : e.take? slot.take = some k) (hon : k.browseOn = true)
    (hb : slot.browse = .undecided) (hlag : (e.waiting f).length = x.lag f) (hw : e.waiting f = j :: rest)
    (hheld : e.held[f] = older ++ [i]) (hnodup : (e.held[f]).Nodup) (hc : e.reducer.check.map (·.1) ≠ some j) :
    (e.frameReady x f i padded concealed).waiting f = rest ++ [i] ∧
      ((e.frameReady x f i padded concealed).slots[j]).map (·.browse) = some (.decided .skippedLate) ∧
      ∀ l, l ≠ i → l ≠ j → (e.frameReady x f i padded concealed).slots[l] = e.slots[l] := by
  let closed : Engine := { e with opened := upd e.opened f fun _ => none }
  let skipped := closed.decideBrowse j .skippedLate
  have hcw : closed.waiting f = j :: rest := hw
  have hready : e.frameReady x f i padded concealed = skipped.updSlot i (Slot.closed padded concealed true) := by
    rw [hw, List.length_cons] at hlag
    rw [Engine.frameReady_of_joins padded concealed hs hk hon hb,
      Engine.skipDownTo_of_one 95 hcw (by omega) hc]
  have hij : j ≠ i := by
    rintro rfl
    exact Engine.not_mem_waiting hs hf (hw ▸ List.mem_cons_self)
  obtain ⟨-, hsheld, htake, hother, hself⟩ := Engine.decideBrowse_keeps j .skippedLate closed
  have hslot : skipped.slots[i] = some slot := (hother i hij.symm).trans hs
  rw [hready]
  refine ⟨?_, ?_, fun l hl hlj => (upd_other _ hl _).trans (hother l hlj)⟩
  · have hjrest : j ∉ rest := by
      have hsub : (e.waiting f).Nodup := by rw [Engine.waiting_eq]; exact hnodup.filter _
      rw [hw] at hsub
      exact (List.nodup_cons.mp hsub).1
    have hrest : skipped.waiting f = rest := by
      rw [Engine.decideBrowse_waiting, hcw, List.filter_cons_of_neg (by simp), List.filter_eq_self]
      exact fun l hl => decide_eq_true fun h => hjrest (h ▸ hl)
    have hon' : (skipped.take? slot.take).map (·.browseOn) = some true := by
      rw [htake, show closed.take? slot.take = some k from hk, Option.map_some, hon]
    rw [Engine.updSlot_closed_waiting padded concealed hslot hf hon' hb (by rw [hsheld]; exact hheld)
      (by rw [hsheld]; exact hnodup), hrest]
  · refine (congrArg (Option.map Slot.browse) (upd_other _ hij _)).trans (hself.trans ?_)
    have hmem : j ∈ e.waiting f := hw ▸ List.mem_cons_self
    rw [Engine.waiting_eq] at hmem
    have hany := (List.mem_filter.mp hmem).2
    show (e.slots[j]).map _ = _
    cases hsj : e.slots[j] with
    | none => rw [hsj] at hany; cases hany
    | some sj => rfl

/-! ## The obligation -/

/-- The close of a frame with lines received: what it makes of the front, and of the engine. -/
theorem State.startHeader_closeFrame {f : FeedId} {s : State} {o : OpenFrame} (ho : s.eng.opened[f] = some o)
    (hr : o.received ≠ []) : ∃ x : Front, x.lag f = s.front.lag f ∧
      ((s.startHeader f).closeFrame f).eng =
        s.eng.frameReady x f o.slot o.padded (missingLines (s.front.settings f).h o.received).length ∧
      ((s.startHeader f).closeFrame f).front = { s.front with
        dram := s.front.dram.conceal o.slot (s.front.settings f).w (s.front.settings f).h o.received
        receivers := upd s.front.receivers f fun r => { r with line := .empty, inHeader := true } } := by
  rw [State.closeFrame_of_received (s := s.startHeader f) ho hr (s.startHeader_settings f)]
  exact ⟨_, rfl, rfl, rfl⟩

/-- A frame with lines received that does not join the waiting frames. -/
theorem Engine.frameReady_keeps_of_not_joins {x : Front} {f : FeedId} {i : SlotId} {e : Engine} {slot : Slot} {k : Take}
    (padded : Bool) (concealed : Nat) (hs : e.slots[i] = some slot) (hk : e.take? slot.take = some k)
    (hj : ¬(k.browseOn = true ∧ slot.browse = .undecided)) :
    e.SameWaits (e.frameReady x f i padded concealed) ∧ (e.frameReady x f i padded concealed).held = e.held ∧
      (e.frameReady x f i padded concealed).slots[i] = some (slot.closed padded concealed k.browseOn) ∧
      (e.frameReady x f i padded concealed).takes = e.takes ∧
      ∀ j, j ≠ i → (e.frameReady x f i padded concealed).slots[j] = e.slots[j] := by
  rw [Engine.frameReady_of_not_joins padded concealed hs hk hj]
  exact ⟨⟨rfl, rfl, rfl, rfl, rfl⟩, rfl, upd_same .., rfl, fun j hj => upd_other _ hj _⟩

/-- Settles O15. -/
theorem frameHeaderStartClosesFrame : Obligations.FrameHeaderStartClosesFrame := by
  intro f o slot k s he hs hh ho hslot hfill hk hq hwait joins
  let u := (s.startHeader f).closeFrame f
  have hatt : u.front.attention = s.front.attention := by rw [State.closeFrame_front]; rfl
  have hopen : u.settle.eng.opened[f] = none :=
    State.settle_opened (by rw [hatt]; exact hq) ((s.startHeader f).closeFrame_opened f)
  refine ⟨u.settle, execFrameHeaderStart_eq he hs hh, hopen, fun hr hcheck => ?_, fun hr => ?_⟩
  · obtain ⟨x, hlag, heng, hfront⟩ := State.startHeader_closeFrame ho hr
    have heng : u.eng =
        s.eng.frameReady x f o.slot o.padded (missingLines (s.front.settings f).h o.received).length := heng
    have hstill : s.eng.SameWaits u.eng → u.settle = u := fun h => State.settle_of_sameWaits hq hwait hatt h
    by_cases hj : joins
    · obtain ⟨hon, hb⟩ := hj
      obtain ⟨hwaits, hheld, hready⟩ := Engine.frameReady_joins_keeps (x := x) o.padded
        (missingLines (s.front.settings f).h o.received).length hslot hfill hk hon hb (hlag ▸ hcheck ⟨hon, hb⟩)
      rw [hstill (heng ▸ hwaits), heng, show u.front = _ from hfront]
      refine ⟨hready.trans ?_, hheld, rfl, rfl, fun hbelow => ?_, fun _ hat hnodup j rest older hw hold => ?_⟩
      · rw [hon]; rfl
      · exact Engine.frameReady_joins_below o.padded _ hslot hk hon hb
          (hlag ▸ hbelow.resolve_left fun h => h ⟨hon, hb⟩)
      · have hhead : s.eng.reducer.check.map (·.1) ≠ some j := hcheck ⟨hon, hb⟩ j (by
          rw [hw, ← hat, hw, Nat.add_sub_cancel_left]
          exact List.mem_cons_self)
        exact Engine.frameReady_joins_at o.padded _ hslot hfill hk hon hb (hat.trans hlag.symm) hw hold hnodup hhead
    · obtain ⟨hwaits, hheld, hready, htakes, hother⟩ := Engine.frameReady_keeps_of_not_joins (x := x) (f := f) o.padded
        (missingLines (s.front.settings f).h o.received).length hslot hk hj
      rw [hstill (heng ▸ hwaits), heng, show u.front = _ from hfront]
      exact ⟨hready, hheld, rfl, rfl, fun _ => ⟨htakes, hother⟩, fun h => absurd h hj⟩
  · have hcl : u = _ := State.closeFrame_of_empty (s := s.startHeader f) ho hr
    have heng : u.eng = s.eng.frameEmpty f o.slot := by rw [hcl]; rfl
    have hstill : u.settle = u :=
      State.settle_of_sameWaits hq hwait hatt (by rw [heng]; exact Engine.frameEmpty_sameWaits hslot)
    rw [hstill, heng, Engine.frameEmpty_eq hslot]
    refine ⟨upd_same .., fun i hi => upd_other _ hi _, fun g => ?_, ?_, fun n hn => ?_, by rw [hcl]; rfl, ?_⟩
    · show (s.eng.held.map _)[g] = _
      rw [Fin.getElem_fin, Vector.getElem_map]
      rfl
    · exact Engine.take?_updTake_self _ _ (fun _ => by rfl) hk
    · exact Engine.take?_updTake_of_ne _ _ (fun _ => by rfl) hn
    · rw [hcl]
      exact upd_upd ..

end Sys2Proof.Machine
end


section
/-! The register window's low-word read, the commands that find nothing to act on, and the idle step (R25, R27, R32, R34,
R147, R168). -/

namespace Sys2Proof.Machine

/-! ## Reads of REF_COUNT (R27) -/

/-- The latch joined to the low word is the count. -/
theorem Front.readLow_append (x : Front) : x.readLow.refLatch ++ x.readLow.readData = x.refCount :=
  BitVec.extractLsb'_append_extractLsb'_eq_extractLsb' (h := rfl) |>.trans (BitVec.extractLsb'_eq_self)

/-- The latch holds the count's high bits. -/
theorem Front.readLow_latch (x : Front) : x.readLow.refLatch.setWidth 32 = (x.refCount >>> 32).setWidth 32 := by
  have := x.refCount.isLt
  apply BitVec.eq_of_toNat_eq
  simp [Front.readLow, Nat.shiftRight_eq_div_pow]
  omega

/-- Settles O7. -/
theorem refCountLowReadResult : Obligations.RefCountLowReadResult := by
  intro s
  let u := s.onFront Front.readLow
  have hkept : u.Kept u.settle := State.settle_kept u
  have hlatch : u.settle.front.refLatch = s.front.readLow.refLatch := hkept.refLatch
  have hdata : u.settle.front.readData = s.front.readLow.readData := hkept.readData
  refine ⟨u.settle, rfl, ?_, hkept.refCount, ?_, fun hr => ?_⟩
  · rw [hlatch, hdata, Front.readLow_append]
  · rw [← Front.readLow_latch, ← hlatch]
    rfl
  · have hsettle : u.settle = u := State.settle_of_front hr rfl rfl
    rw [hsettle]
    rfl

/-! ## Nothing to act on -/

/-- Settles O8: each of these commands does nothing but settle, and a part at rest is settled. -/
theorem nothingToActOn : Obligations.NothingToActOn := by
  intro s hr
  have hsettle : s.settle = s := State.settle_of_atRest hr
  refine ⟨fun offset word => ?_, fun ho => ⟨?_, fun c => ?_⟩, fun o ho c hc => ?_, fun hb => ?_, fun hl => ⟨?_, ?_⟩⟩
  · show execIgnoredRegisterWrite offset word s = _
    rw [execIgnoredRegisterWrite, hsettle]
  · show execReadTimeout s = _
    rw [execReadTimeout, ho, hsettle]
  · show execReadCompletion c s = _
    rw [execReadCompletion, ho, hsettle]
  · show execReadCompletion c s = _
    rw [execReadCompletion, ho]
    dsimp only
    rw [if_neg (Ne.symm hc), hsettle]
  · show execLinkBurstComplete s = _
    rw [execLinkBurstComplete, hb, hsettle]
  · show execRefPulseEdge s = _
    rw [execRefPulseEdge, hl, hsettle]
  · have hdue : s.takeLoadWait = s := by simp [State.takeLoadWait, Front.loadDue, hl]
    show execTimeLoadWaitExpiry s = _
    rw [execTimeLoadWaitExpiry, hdue, hsettle]

/-! ## What failed reads change (R147, R148) -/

/-- Of the failed reads only the page header's changes the flags. -/
theorem State.readFails_kept {r : ReadRequest} (h : r ≠ .pageHeader) (s : State) : s.Kept (s.readFails r) := by
  have hend : s.Kept s.endService := State.onAttention_kept s _
  cases r with
  | pageHeader => exact absurd rfl h
  | timeValue => exact hend.trans (State.globalAnswer_kept ..)
  | settings f => exact hend.trans (State.conclude_kept ..)
  | common f => exact hend.trans (State.conclude_kept ..)
  | stagedAddress f => exact hend.trans (State.conclude_kept ..)
  | sheetHeader f sheet => exact hend.trans (State.conclude_kept ..)
  | armEntry f sheet n => exact hend.trans (State.conclude_kept ..)
  | posted f t sheet refill => exact .refl s
  | entry use t sheet n => exact State.act_kept s fun x e => e.entryFailed x use t

/-! ## The queue and the count -/

/-- The queue and the Reference Count are the same in `s'` as in `s`. -/
structure State.SameTime (s s' : State) : Prop where
  pending : s'.pending = s.pending
  refCount : s'.front.refCount = s.front.refCount

theorem State.SameTime.refl (s : State) : s.SameTime s := ⟨rfl, rfl⟩

theorem State.SameTime.trans {s t u : State} (h : s.SameTime t) (k : t.SameTime u) : s.SameTime u :=
  ⟨k.pending.trans h.pending, k.refCount.trans h.refCount⟩

theorem State.Kept.sameTime {s s' : State} (h : s.Kept s') : s.SameTime s' := ⟨h.pending, h.refCount⟩

theorem State.onFlags_sameTime (s : State) (g : StatusFlags → StatusFlags) : s.SameTime (s.onFlags g) := ⟨rfl, rfl⟩

theorem State.setLink_sameTime (f : FeedId) (l : Link) (s : State) : s.SameTime (s.setLink f l) := by
  unfold State.setLink
  split
  · exact .refl s
  · exact ⟨rfl, rfl⟩

theorem State.closeFrame_sameTime (f : FeedId) (s : State) : s.SameTime (s.closeFrame f) := by
  refine ⟨?_, by rw [State.closeFrame_front]⟩
  unfold State.closeFrame
  split
  · rfl
  · split <;> rfl

theorem State.linkLoss_sameTime (f : FeedId) (cause : LossCause) (s : State) : s.SameTime (s.linkLoss f cause) := by
  unfold State.linkLoss
  split
  · exact .refl s
  · exact ⟨rfl, rfl⟩

theorem State.applyBlock_sameTime (f : FeedId) (s : State) (b : Block) : s.SameTime (s.applyBlock f b) := by
  refine ⟨?_, by rw [State.applyBlock_front, Front.applyBlock_refCount]⟩
  cases b with
  | disabling => exact (State.setLink_sameTime f .dark _).pending
  | enabling n =>
    show (s.applyEnabling f n).pending = _
    rw [State.applyEnabling_eq]
    split
    · exact (State.setLink_sameTime f _ _).pending
    · rfl

theorem State.applyPending_sameTime (f : FeedId) (s : State) : s.SameTime (s.applyPending f) := by
  cases h : s.front.receivers[f].waiting with
  | none => rw [State.applyPending_of_none h]; exact .refl s
  | some b =>
    rw [State.applyPending_of_some h]
    exact (State.onReceiver_kept s f _).sameTime.trans (State.applyBlock_sameTime f _ b)

theorem State.leaveLocked_sameTime (f : FeedId) (l : Link) (cause : LossCause) (s : State) :
    s.SameTime (s.leaveLocked f l cause) :=
  ((((State.setLink_sameTime f l s).trans (State.closeFrame_sameTime f _)).trans (State.linkLoss_sameTime f cause _)).trans
    (State.act_kept _ _).sameTime).trans (State.applyPending_sameTime f _)

theorem State.failOutstanding_sameTime (o : Outstanding) (s : State) : s.SameTime (s.failOutstanding o) := by
  have hfault : s.SameTime (s.endRead.onFlags fun g => { g with linkFault := true }) := ⟨rfl, rfl⟩
  unfold State.failOutstanding
  dsimp only
  split
  · refine hfault.trans ?_
    by_cases h : o.request = .pageHeader
    · rw [h]
      exact ⟨rfl, rfl⟩
    · exact (State.readFails_kept h _).sameTime
  · exact hfault

/-! ## Expiries -/

theorem State.takeDeadline_sameTime (s : State) (f : FeedId) : s.SameTime (s.takeDeadline f) := by
  unfold State.takeDeadline
  split
  · have hnone : s.SameTime (s.onFront fun x => x.updTimer f fun t => { t with deadline := none }) := ⟨rfl, rfl⟩
    unfold State.expireDeadline
    dsimp only
    split
    · exact hnone
    · exact hnone.trans (State.onReceiver_kept _ f _).sameTime
    · exact (hnone.trans (State.onReceiver_kept _ f _).sameTime).trans (State.leaveLocked_sameTime f ..)
  · exact .refl s

theorem State.takeLoadWait_kept (s : State) : s.Kept s.takeLoadWait := by
  unfold State.takeLoadWait
  split
  · exact (State.dropLoad_kept s).trans (State.globalAnswer_kept ..)
  · exact .refl s

theorem State.takeReadTimeout_sameTime (s : State) : s.SameTime s.takeReadTimeout := by
  unfold State.takeReadTimeout
  split
  · split
    · exact State.failOutstanding_sameTime ..
    · exact .refl s
  · exact .refl s

theorem State.takeDeadlines_sameTime (l : List FeedId) (s : State) : s.SameTime (l.foldl State.takeDeadline s) := by
  induction l generalizing s with
  | nil => exact .refl s
  | cons f l ih => exact (State.takeDeadline_sameTime s f).trans (ih _)

/-- What is due expires without a change of the queue or the count. -/
theorem State.takeDue_sameTime (s : State) : s.SameTime s.takeDue :=
  ((State.takeDeadlines_sameTime _ s).trans (State.takeLoadWait_kept _).sameTime).trans (State.takeReadTimeout_sameTime _)

/-- With nothing due, nothing expires. -/
theorem State.takeDue_of_none {s : State} (hd : ∀ f : FeedId, s.front.timers[f].deadline ≠ some 0)
    (hl : ∀ l, s.front.pendingLoad = some l → l.wait ≠ 0)
    (ho : ∀ o, s.eng.port.outstanding = some o → o.remaining ≠ 0) : s.takeDue = s := by
  have hfeed : ∀ f, s.takeDeadline f = s := fun f => if_neg (by
    rw [Front.deadlineDue, beq_iff_eq]; exact hd f)
  have hfeeds : ∀ l : List FeedId, l.foldl State.takeDeadline s = s := by
    intro l
    induction l with
    | nil => rfl
    | cons f l ih => rw [List.foldl_cons, hfeed, ih]
  have hwait : s.takeLoadWait = s := if_neg (by
    cases h : s.front.pendingLoad with
    | none => simp [Front.loadDue, h]
    | some l => simpa [Front.loadDue, h] using hl l h)
  have hread : s.takeReadTimeout = s := by
    unfold State.takeReadTimeout
    split
    · rename_i o h
      exact if_neg (ho o h)
    · rfl
  rw [State.takeDue, hfeeds, hwait, hread]

theorem State.advance_pending (s : State) : s.advance.pending = s.pending := rfl

theorem State.advance_refCount (s : State) : s.advance.front.refCount = s.front.refCount + 1 := rfl

/-- Settles O3. -/
theorem idleStepTicks : Obligations.IdleStepTicks := by
  intro s hp
  have hstep : step s = .next s.tick := step_of_nil hp
  have htime : s.SameTime s.takeDue.settle := (State.takeDue_sameTime s).trans (State.settle_kept s.takeDue).sameTime
  refine ⟨⟨s.tick, hstep, ?_, ?_⟩, fun hr hd hl ho => ?_⟩
  · rw [State.tick, State.advance_pending, htime.pending, hp]
  · rw [State.tick, State.advance_refCount, htime.refCount]
  · rw [hstep, State.tick, State.takeDue_of_none hd hl ho, State.settle_of_atRest hr]
    rfl

end Sys2Proof.Machine
end


section
/-! Global answers, the two ends of a pending time load, and the reads of the time load value and of the page header (R34 to
R36, R147, R148, R153, R166, R172). -/

namespace Sys2Proof.Machine

/-! ## The Attention Unit's requests -/

/-- With no request waiting or in hand, the Attention Unit is quiet. -/
theorem Attention.quiet_of_none {u : Attention} (hg : u.global = none) (hp : ∀ f : FeedId, u.pending[f] = none) :
    u.quiet = true := by
  have hnext : u.nextFeed = none := by
    unfold Attention.nextFeed
    rw [List.findSome?_eq_none_iff]
    intro f _
    rw [hp f]
  simp only [Attention.quiet, hg, hnext, hp, Bool.and_eq_true, Bool.or_eq_true, List.all_eq_true]
  exact ⟨.inr ⟨rfl, rfl⟩, fun f _ => rfl⟩

theorem State.settle_front_of_none {s : State} (hg : s.front.attention.global = none)
    (hp : ∀ f : FeedId, s.front.attention.pending[f] = none) : s.settle.front = s.front :=
  State.settle_front_of_quiet (Attention.quiet_of_none hg hp)

/-- The requests that wait, are in hand or are in service are the same in `u'` as in `u`. -/
structure Attention.SameRequests (u u' : Attention) : Prop where
  pending : u'.pending = u.pending
  global : u'.global = u.global
  service : u'.service = u.service
  lastServed : u'.lastServed = u.lastServed

/-- A part at rest with a busy link stays at rest when the requests, the blocks' work and the reads asked stay. -/
theorem State.atRest_of_sameRequests {s s' : State} (h : s.atRest = true) (hb : s.linkBusy = true)
    (ha : s.front.attention.SameRequests s'.front.attention) (hw : s.eng.SameWork s'.eng)
    (hr : ∀ f, s.eng.port.refillWaits f = true → s'.eng.port.refillWaits f = true) : s'.atRest = true := by
  have h : s.unitStep = none := by simpa [State.atRest] using h
  obtain ⟨h1, h2, h3, -⟩ := s.unitStep_eq_none_iff.mp h
  have hnext : s'.front.attention.nextFeed = s.front.attention.nextFeed := by
    unfold Attention.nextFeed
    rw [ha.lastServed, ha.pending]
  have : s'.unitStep = none := by
    rw [State.unitStep_eq_none_iff]
    refine ⟨?_, (hw.blockStep _ _).mpr h2, ?_, Engine.arbiterStep_of_busy _ (by rw [hw.busy]; exact hb)⟩
    · rw [State.serveStep_eq_none_iff, ha.service, ha.global, hnext]
      exact s.serveStep_eq_none_iff.mp h1
    · rw [State.refillStep_eq_none_iff, ha.pending]
      intro f hf
      exact hr f (s.refillStep_eq_none_iff.mp h3 f hf)
  simp [State.atRest, this]

/-! ## Global answers (R153, R172) -/

/-- The next global answer record. -/
def Attention.nextAnswer (u : Attention) (q : GlobalRequest) (r : Result) : GlobalAnswer := ⟨u.answer.taken + 1, some q, some r⟩

theorem State.globalAnswer_front (q : GlobalRequest) (r : Result) (s : State) : (s.globalAnswer q r).front =
    { s.front with attention := { s.front.attention with answer := s.front.attention.nextAnswer q r } } := rfl

/-- An owed message asks at most one write, behind those asked before. -/
theorem Engine.oweMessage_writes (x : Front) (b : Bool) (e : Engine) :
    ∃ tail, (e.oweMessage x b).port.writes = e.port.writes ++ tail := by
  unfold Engine.oweMessage
  split
  · split
    · exact ⟨[.message], rfl⟩
    · exact ⟨[], (List.append_nil _).symm⟩
  · exact ⟨[], (List.append_nil _).symm⟩

theorem Engine.raiseGlobal_writes (x : Front) (e : Engine) : ∃ tail, (e.raiseGlobal x).port.writes = e.port.writes ++ tail :=
  Engine.oweMessage_writes x _ { e with notices := { e.notices with globalMark := true } }

theorem Engine.raiseGlobal_mark (x : Front) (e : Engine) : (e.raiseGlobal x).notices.globalMark = true := by
  unfold Engine.raiseGlobal
  rw [Engine.oweMessage_eq]

theorem Engine.raiseGlobal_sameWork (x : Front) (e : Engine) : e.SameWork (e.raiseGlobal x) :=
  Engine.SameWork.trans (b := { e with notices := { e.notices with globalMark := true } })
    ⟨rfl, rfl, rfl, rfl, rfl, rfl, rfl, rfl⟩ (Engine.oweMessage_sameWork ..)

theorem Engine.raiseGlobal_reads (x : Front) (e : Engine) :
    (e.raiseGlobal x).port.reads = e.port.reads ∧ (e.raiseGlobal x).port.outstanding = e.port.outstanding :=
  Engine.oweMessage_reads x _ { e with notices := { e.notices with globalMark := true } }

theorem State.globalAnswer_eng (q : GlobalRequest) (r : Result) (s : State) : (s.globalAnswer q r).eng =
    (s.eng.ask (.globalAnswer (s.front.attention.nextAnswer q r))).raiseGlobal (s.globalAnswer q r).front := rfl

/-- A global answer joins the write list, an interrupt message at most behind it. -/
theorem State.globalAnswer_writes (q : GlobalRequest) (r : Result) (s : State) :
    ∃ tail, (s.globalAnswer q r).eng.port.writes =
      s.eng.port.writes ++ .globalAnswer (s.front.attention.nextAnswer q r) :: tail := by
  obtain ⟨tail, h⟩ := Engine.raiseGlobal_writes (s.globalAnswer q r).front
    (s.eng.ask (.globalAnswer (s.front.attention.nextAnswer q r)))
  refine ⟨tail, h.trans ?_⟩
  show s.eng.port.writes ++ [.globalAnswer _] ++ tail = _
  rw [List.append_assoc]
  rfl

theorem State.globalAnswer_sameWork (q : GlobalRequest) (r : Result) (s : State) :
    s.eng.SameWork (s.globalAnswer q r).eng :=
  (Engine.ask_sameWork s.eng _).trans (Engine.raiseGlobal_sameWork ..)

theorem State.globalAnswer_refillWaits (q : GlobalRequest) (r : Result) (s : State) (f : FeedId) :
    (s.globalAnswer q r).eng.port.refillWaits f = s.eng.port.refillWaits f := by
  obtain ⟨hreads, hout⟩ := Engine.raiseGlobal_reads (s.globalAnswer q r).front
    (s.eng.ask (.globalAnswer (s.front.attention.nextAnswer q r)))
  unfold Port.refillWaits
  rw [State.globalAnswer_eng, hreads, hout, Engine.ask_port_reads, Engine.ask_port_outstanding]

/-- With the part at rest and the link busy, a global answer behind a change of the front outside the Attention Unit gives
rise to no act. -/
theorem State.settle_globalAnswer {s u : State} (h : s.atRest = true) (hb : s.linkBusy = true)
    (ha : u.front.attention = s.front.attention) (he : u.eng = s.eng) (q : GlobalRequest) (r : Result) :
    (u.globalAnswer q r).settle = u.globalAnswer q r := by
  refine State.settle_of_atRest (State.atRest_of_sameRequests h hb ?_ ?_ fun f hf => ?_)
  · rw [State.globalAnswer_front, ha]
    exact ⟨rfl, rfl, rfl, rfl⟩
  · rw [← he]
    exact State.globalAnswer_sameWork ..
  · rw [State.globalAnswer_refillWaits, he]
    exact hf

/-! ## The ends of a pending time load (R35, R36) -/

/-- Settles O29: either end is a change of the clock with a global answer behind it. -/
theorem timeLoadEndsResult : Obligations.TimeLoadEndsResult := by
  intro l s hr hb hl
  refine ⟨?_, fun hwait => ?_⟩
  · let u := s.onFront fun x => { x with
      refCount := l.value, timers := x.timers.map fun t => { t with history := [] }, pendingLoad := none }
    have hexec : exec .refPulseEdge s = .next (u.globalAnswer .timeLoad .done).settle := by
      show execRefPulseEdge s = _
      rw [execRefPulseEdge, hl]
      rfl
    rw [State.settle_globalAnswer (u := u) hr hb rfl rfl] at hexec
    obtain ⟨tail, hwrites⟩ := u.globalAnswer_writes .timeLoad .done
    have hwork := u.globalAnswer_sameWork .timeLoad .done
    exact ⟨_, tail, hexec, rfl, hwrites, Engine.raiseGlobal_mark .., hwork.takes, hwork.slots, rfl⟩
  · let u := s.onFront fun x => { x with pendingLoad := none }
    have hexec : exec .timeLoadWaitExpiry s = .next (u.globalAnswer .timeLoad .noPulse).settle := by
      have hdue : s.front.loadDue = true := by simp [Front.loadDue, hl, hwait]
      show execTimeLoadWaitExpiry s = _
      rw [execTimeLoadWaitExpiry, State.takeLoadWait, if_pos hdue]
      rfl
    rw [State.settle_globalAnswer (u := u) hr hb rfl rfl] at hexec
    obtain ⟨tail, hwrites⟩ := u.globalAnswer_writes .timeLoad .noPulse
    have hwork := u.globalAnswer_sameWork .timeLoad .noPulse
    exact ⟨_, tail, hexec, rfl, hwrites, Engine.raiseGlobal_mark .., hwork.takes, hwork.slots, rfl⟩

/-! ## Failed reads (R147, R148) -/

/-- The outstanding read fails by a completion with an error, or by the end of its time. -/
theorem exec_of_readFailure {c : Instr} {o : Outstanding} {s : State} (ho : s.eng.port.outstanding = some o)
    (hc : c = .readCompletion ⟨o.number, .error⟩ ∨ c = .readTimeout ∧ o.remaining = 0) :
    exec c s = .next (s.failOutstanding o).settle := by
  rcases hc with rfl | ⟨rfl, hzero⟩
  · exact execReadCompletion_of_outstanding ho .error
  · show execReadTimeout s = _
    rw [execReadTimeout, ho]
    dsimp only
    rw [if_pos hzero]

/-- What a failed read makes of the PART_STATUS flags: LINK_FAULT is set, and RESET_SEEN and ATTENTION_IGNORED stay. -/
theorem State.failOutstanding_flags (o : Outstanding) (s : State) : (s.failOutstanding o).front.flags =
    { s.front.flags with linkFault := true, pageFault := (s.failOutstanding o).front.flags.pageFault } := by
  unfold State.failOutstanding
  dsimp only
  split
  · by_cases h : o.request = .pageHeader
    · rw [h]
      rfl
    · rw [(State.readFails_kept h _).flags]
      rfl
  · rfl

/-- Settles O30. -/
theorem readFailureResult : Obligations.ReadFailureResult := by
  intro c o s ho hc
  have hkept : (s.failOutstanding o).Kept (s.failOutstanding o).settle := State.settle_kept _
  have hflags := State.failOutstanding_flags o s
  refine ⟨_, exec_of_readFailure ho hc, ?_, ?_, ?_, ?_, fun hw hreq hg hp => ?_⟩
  · rw [hkept.flags, hflags]
  · rw [hkept.flags, hflags]
  · rw [hkept.flags, hflags]
  · rw [hkept.refCount, (State.failOutstanding_sameTime o s).refCount]
  · let u := (s.endRead.onFlags fun g => { g with linkFault := true }).endService.globalAnswer .timeLoad .linkError
    have hfail : s.failOutstanding o = u := by
      rw [State.failOutstanding, if_pos hw, hreq]
      rfl
    rw [hfail, State.settle_front_of_none (s := u) hg hp]
    exact ⟨rfl, rfl⟩

/-! ## The time load value and the page header (R34, R166) -/

theorem leNat_take (n : Nat) (bytes : List Byte) : leNat (bytes.take n) = leNat bytes % 256 ^ n := by
  induction n generalizing bytes with
  | zero => simp [leNat, Nat.mod_one]
  | succ n ih =>
    cases bytes with
    | nil => simp [leNat]
    | cons b bs =>
      have hb : b.toNat < 256 := b.isLt
      rw [List.take_succ_cons, leNat, leNat, ih, pow_succ', Nat.mod_mul, Nat.add_mul_mod_self_left, Nat.mod_eq_of_lt hb,
        Nat.add_mul_div_left _ _ (by decide), Nat.div_eq_of_lt hb, Nat.zero_add]

/-- The low 48 bits of an eight-byte field are its first six bytes. -/
theorem ofNat_fieldAt_eight (bytes : List Byte) (h : bytes.length = 8) :
    BitVec.ofNat 48 (fieldAt bytes 0 8) = BitVec.ofNat 48 (leNat (bytes.take 6)) := by
  rw [leNat_take, fieldAt, List.drop_zero, List.take_of_length_le (le_of_eq h)]
  apply BitVec.eq_of_toNat_eq
  rw [BitVec.toNat_ofNat, BitVec.toNat_ofNat, show (256 ^ 6 : Nat) = 2 ^ 48 by norm_num, Nat.mod_mod]

/-- The front once a time load value is in: it becomes the pending load, and one held before is answered SUPERSEDED. -/
theorem State.timeValueRead_front (v : Count) (s : State) : (s.timeValueRead v).front = { s.front with
    pendingLoad := some ⟨v, loadWait⟩
    attention := { s.front.attention with
      service := none
      answer := if s.front.pendingLoad.isSome then s.front.attention.nextAnswer .timeLoad .superseded
        else s.front.attention.answer } } := by
  unfold State.timeValueRead
  cases s.front.pendingLoad <;> rfl

/-- The front after a completion of the outstanding read, when no request waits or is in hand then. -/
theorem exec_readCompletion_front {o : Outstanding} {s u : State} {r : Reply} (ho : s.eng.port.outstanding = some o)
    (hu : s.completeOutstanding o r = u) (hg : u.front.attention.global = none)
    (hp : ∀ f : FeedId, u.front.attention.pending[f] = none) :
    ∃ t, exec (.readCompletion ⟨o.number, r⟩) s = .next t ∧ t.front = u.front :=
  ⟨u.settle, hu ▸ execReadCompletion_of_outstanding ho r, State.settle_front_of_none hg hp⟩

/-- Settles O33. -/
theorem globalReadsResult : Obligations.GlobalReadsResult := by
  refine ⟨fun o bytes s ho hw hreq hlen hg hp => ?_, fun o bytes s ho hw hreq hlen hg hp => ?_⟩
  · have hdone : s.completeOutstanding o (.data bytes) = s.endRead.timeValueRead (BitVec.ofNat 48 (fieldAt bytes 0 8)) := by
      rw [State.completeOutstanding_data hw (by rw [hreq]; exact hlen), hreq]
      rfl
    have hvalue := s.endRead.timeValueRead_front (BitVec.ofNat 48 (fieldAt bytes 0 8))
    obtain ⟨t, hexec, hfront⟩ :=
      exec_readCompletion_front ho hdone (by rw [hvalue]; exact hg) (by rw [hvalue]; exact hp)
    refine ⟨t, hexec, ?_⟩
    rw [hfront, hvalue, ofNat_fieldAt_eight bytes hlen]
    exact ⟨rfl, rfl, rfl⟩
  · have hdone : s.completeOutstanding o (.data bytes) = s.endRead.pageHeaderRead bytes := by
      rw [State.completeOutstanding_data hw (by rw [hreq]; exact hlen), hreq]
      rfl
    refine ⟨fun hgood => ?_, fun hbad => ?_, ?_⟩
    · obtain ⟨t, hexec, hfront⟩ := exec_readCompletion_front ho (hdone.trans (if_pos hgood)) hg hp
      exact ⟨t, hexec, by rw [hfront]; rfl, by rw [hfront]; rfl⟩
    · obtain ⟨t, hexec, hfront⟩ := exec_readCompletion_front ho (hdone.trans (if_neg hbad)) hg hp
      exact ⟨t, hexec, by rw [hfront]; rfl, by rw [hfront]; rfl⟩
    · have hfail : s.completeOutstanding o .error =
          (s.endRead.onFlags fun g => { g with linkFault := true }).failStart := by
        rw [State.completeOutstanding_error hw, hreq]
        rfl
      obtain ⟨t, hexec, hfront⟩ := exec_readCompletion_front ho hfail hg hp
      exact ⟨t, hexec, by rw [hfront]; rfl, by rw [hfront]; rfl⟩

end Sys2Proof.Machine
end


section
/-! The blocks' own acts only add to the write list and leave the link's burst alone (R142, R145): no act but a grant takes
a write from the list. -/

namespace Sys2Proof.Machine

namespace Engine

/-- From engine `a` to `e`, writes have at most been asked behind those that waited, and the link's burst has stayed. -/
structure Grows (a e : Engine) : Prop where
  writes : a.port.writes <+: e.port.writes
  busy : e.arbiter.busy = a.arbiter.busy

namespace Grows

variable {a e : Engine}

theorem refl (e : Engine) : Grows e e := ⟨List.prefix_refl _, rfl⟩

theorem trans {b c : Engine} (h : Grows a b) (k : Grows b c) : Grows a c :=
  ⟨h.writes.trans k.writes, k.busy.trans h.busy⟩

theorem same {e' : Engine} (h : Grows a e) (hw : e'.port.writes = e.port.writes)
    (hb : e'.arbiter.busy = e.arbiter.busy) : Grows a e' :=
  h.trans ⟨hw ▸ List.prefix_refl _, hb⟩

theorem ask {w : WriteRequest} (h : Grows a e) : Grows a (e.ask w) := by
  unfold Engine.ask
  split
  · exact h
  · exact h.trans ⟨List.prefix_append _ _, rfl⟩

theorem askState {t : Nat} {sheet : HostAddr} {st : SheetState} (h : Grows a e) : Grows a (e.askState t sheet st) :=
  h.ask.ask

theorem updTake {t : Nat} {g : Take → Take} (h : Grows a e) : Grows a (e.updTake t g) := h.same rfl rfl

theorem updPlaces {f : FeedId} {g : Places → Places} (h : Grows a e) : Grows a (e.updPlaces f g) := h.same rfl rfl

theorem updSlot {i : SlotId} {g : Slot → Slot} (h : Grows a e) : Grows a (e.updSlot i g) := h.same rfl rfl

theorem withdrawReads {p : ReadRequest → Bool} (h : Grows a e) : Grows a (e.withdrawReads p) := h.same rfl rfl

theorem foldl {α : Type} {g : Engine → α → Engine} (hg : ∀ {e b}, Grows a e → Grows a (g e b)) (l : List α)
    (h : Grows a e) : Grows a (l.foldl g e) := by
  induction l generalizing e with
  | nil => exact h
  | cons b l ih => exact ih (hg h)

/-! ### Notices -/

theorem oweMessage {x : Front} {b : Bool} (h : Grows a e) : Grows a (e.oweMessage x b) := by
  unfold Engine.oweMessage
  split
  · split
    · exact h.ask
    · exact h.same rfl rfl
  · exact h

theorem setCauses {x : Front} {f : FeedId} {c : BitVec 9} (h : Grows a e) : Grows a (e.setCauses x f c) := by
  have hchanged : Grows a { e with notices := { e.notices with causes := upd e.notices.causes f fun _ => c } } :=
    h.same rfl rfl
  unfold Engine.setCauses
  split
  · exact h
  · refine .oweMessage ?_
    split
    · exact hchanged.ask
    · exact hchanged

theorem raise {x : Front} {f : FeedId} {c : Cause} (h : Grows a e) : Grows a (e.raise x f c) := h.setCauses

theorem syncConditions {x : Front} {f : FeedId} (h : Grows a e) : Grows a (e.syncConditions x f) := h.setCauses

/-! ### Records -/

theorem withdrawWriter {t : Nat} (h : Grows a e) : Grows a (e.withdrawWriter t) := by
  unfold Engine.withdrawWriter
  split
  · split
    · exact h.same rfl rfl
    · exact h
  · exact h

theorem makeRoom {f : FeedId} (h : Grows a e) : Grows a (e.makeRoom f) := by
  unfold Engine.makeRoom Engine.removeNewest
  split
  · split
    · exact h
    · split
      · exact h
      · dsimp only
        refine .updTake ?_
        split
        · exact h.withdrawWriter
        · exact h
  · exact h

theorem queueEvent {t : Nat} {b : RecordBody} (h : Grows a e) : Grows a (e.queueEvent t b) := by
  rw [Engine.queueEvent_eq]; exact h.same rfl rfl

theorem queueEvents {t : Nat} {bs : List RecordBody} (h : Grows a e) : Grows a (e.queueEvents t bs) :=
  foldl (fun h => h.queueEvent) bs h

theorem queueBehind {n t : Nat} {bs : List RecordBody} (h : Grows a e) : Grows a (e.queueBehind n t bs) := by
  rw [Engine.queueBehind_eq]; exact h.same rfl rfl

theorem queueStart {f : FeedId} {t : Nat} {r : StartRecord} (h : Grows a e) : Grows a (e.queueStart f t r) :=
  h.makeRoom.same rfl rfl

theorem queueEnd {f : FeedId} {t : Nat} (h : Grows a e) : Grows a (e.queueEnd f t) := h.makeRoom.same rfl rfl

theorem withdrawAtSplit {kind : Exhaustion} {t : Take} (h : Grows a e) : Grows a (e.withdrawAtSplit kind t) := by
  unfold Engine.withdrawAtSplit
  split
  · split
    · exact h.withdrawWriter
    · exact h
  · exact h.withdrawWriter

theorem moveRecords {kind : Exhaustion} {t g : Take} (h : Grows a e) : Grows a (e.moveRecords kind t g) :=
  h.withdrawAtSplit.updTake.updTake

theorem trySettle {i : SlotId} (h : Grows a e) : Grows a (e.trySettle i) := by
  rw [Engine.trySettle_eq]; exact h.same rfl rfl

theorem decideBrowse {i : SlotId} {o : BrowseOutcome} (h : Grows a e) : Grows a (e.decideBrowse i o) :=
  .trySettle h.updSlot

/-! ### Frames leave the pool -/

theorem withdrawMover {i : SlotId} (h : Grows a e) : Grows a (e.withdrawMover i) := by
  unfold Engine.withdrawMover
  split
  · exact h
  · split
    · exact h.same rfl rfl
    · exact h
  · split
    · exact h.same rfl rfl
    · exact h

theorem withdrawCheck {i : SlotId} (h : Grows a e) : Grows a (e.withdrawCheck i) := by
  unfold Engine.withdrawCheck
  split
  · split
    · exact h.same rfl rfl
    · exact h
  · exact h

theorem abandonReduction {i : SlotId} (h : Grows a e) : Grows a (e.abandonReduction i) := by
  unfold Engine.abandonReduction
  split
  · split
    · exact h.same rfl rfl
    · exact h
  · exact h

theorem abandonSlot {i : SlotId} (h : Grows a e) : Grows a (e.abandonSlot i) := by
  have hleft := h.withdrawMover (i := i) |>.withdrawCheck (i := i) |>.abandonReduction (i := i)
  unfold Engine.abandonSlot
  dsimp only
  split
  · exact hleft.same rfl rfl
  · exact hleft.same rfl rfl

theorem moveFrame {t : Nat} {browseOn : Bool} {p : SlotId × Nat} (h : Grows a e) : Grows a (e.moveFrame t browseOn p) :=
  h.withdrawMover.withdrawCheck.abandonReduction.updSlot

/-! ### Takes begin and close -/

theorem beginTake {x : Front} {f : FeedId} {t : Nat} {first : Bool} {c : Count} {tc : Timecode} (h : Grows a e) :
    Grows a (e.beginTake x f t first c tc) := by
  unfold Engine.beginTake
  dsimp only
  split
  · exact h
  · exact h.updTake.queueStart.queueBehind.updTake.askState.raise.ask

theorem promote {f : FeedId} {t : Take} {mode : StartMode} (h : Grows a e) : Grows a (e.promote f t mode) :=
  h.updPlaces.updTake.askState.ask

theorem cancelStaged {f : FeedId} (h : Grows a e) : Grows a (e.cancelStaged f) := by
  unfold Engine.cancelStaged Engine.cancelTake
  split
  · exact h
  · exact h.updTake.ask.updPlaces

theorem closeLive {f : FeedId} {t : Take} {reason : CloseReason} {c : Count} (h : Grows a e) :
    Grows a (e.closeLive f t reason c) :=
  h.updPlaces.updTake.queueEnd.askState.ask

theorem deferStop {f : FeedId} {t : Take} {reason : CloseReason} (h : Grows a e) : Grows a (e.deferStop f t reason) :=
  h.updPlaces.updTake

theorem promoteAfterClose {f : FeedId} {reason : CloseReason} (h : Grows a e) :
    Grows a (e.promoteAfterClose f reason) := by
  unfold Engine.promoteAfterClose
  split
  · exact h
  · split
    · exact h.cancelStaged
    · exact h.cancelStaged
    · exact h.cancelStaged
    · exact h.promote

theorem discardTail {kind : Exhaustion} {n : Nat} (h : Grows a e) : Grows a (e.discardTail kind n) := by
  have habandon : ∀ (l : List SlotId) {b : Engine}, Grows a b → Grows a (l.foldl Engine.abandonSlot b) :=
    fun l => foldl abandonSlot l
  unfold Engine.discardTail
  split
  · exact h
  · dsimp only
    split
    · exact habandon _ h.withdrawAtSplit.updTake
    · exact .ask (habandon _ h.withdrawAtSplit.updTake)

theorem rollover {x : Front} {f : FeedId} {kind : Exhaustion} {n : Nat} {g : Take} (h : Grows a e) :
    Grows a (e.rollover x f kind n g) := by
  unfold Engine.rollover
  split
  · exact h
  · rename_i t ht
    dsimp only
    have hmoved := fun first c tc => foldl (g := Engine.moveFrame g.id g.browseOn) moveFrame
      (frameSlots (e.tailRecords kind t)).zipIdx (beginTake (x := x) (f := f) (t := g.id) (first := first) (c := c) (tc := tc)
        (h.moveRecords (kind := kind) (t := t) (g := g)
          |>.updPlaces (f := f) (g := fun p => { p with live := some g.id, staged := none })))
    split
    · split
      · exact (hmoved _ _ _).deferStop
      · exact (hmoved _ _ _).closeLive.promoteAfterClose
    · exact hmoved _ _ _

theorem closeExhausted {x : Front} {f : FeedId} {kind : Exhaustion} {t : Take} (h : Grows a e) :
    Grows a (e.closeExhausted x f kind t) := by
  unfold Engine.closeExhausted
  dsimp only
  split
  · exact h.closeLive.discardTail
  · split
    · exact h.closeLive.rollover
    · exact h.closeLive.discardTail.promote

theorem findExhausted {x : Front} {kind : Exhaustion} {n : Nat} (h : Grows a e) : Grows a (e.findExhausted x kind n) := by
  unfold Engine.findExhausted
  split
  · exact h
  · rename_i t ht
    dsimp only
    have hfound : ∀ g p, Grows a (((e.updTake n g).withdrawReads p).syncConditions x t.feed) :=
      fun g p => h.updTake.withdrawReads.syncConditions
    split
    · split
      · exact h.discardTail
      · exact h
    · split
      · exact (hfound _ _).discardTail
      · split
        · exact hfound _ _
        · split
          · exact (hfound _ _).deferStop
          · exact (hfound _ _).closeExhausted

/-! ### The blocks' acts -/

theorem starveEssence {x : Front} {t : Take} (h : Grows a e) : Grows a (e.starveEssence x t) := by
  unfold Engine.starveEssence
  split
  · exact h.findExhausted
  · split
    · exact h
    · exact h.updTake.queueEvent.syncConditions

theorem moverStep {x : Front} {e' : Engine} (h : Grows a e) (he : e.moverStep x = some e') : Grows a e' := by
  unfold Engine.moverStep at he
  split at he
  · obtain ⟨p, -, rfl⟩ := Option.map_eq_some_iff.mp he
    exact h.same rfl rfl
  · cases he
    have hidle : Grows a (e.setMover .idle) := h.same rfl rfl
    unfold Engine.moverCheck
    split
    · exact hidle
    · split
      · exact h.same rfl rfl
      · exact h.same rfl rfl
      · exact hidle.starveEssence
      · exact hidle.findExhausted
  · cases he

theorem refeedStep {x : Front} {e' : Engine} (h : Grows a e) (he : e.refeedStep x = some e') : Grows a e' := by
  obtain ⟨t, -, rfl⟩ := Option.map_eq_some_iff.mp he
  have hset : ∀ st, Grows a (e.setRefeed t.id st) := fun st => h.updTake
  unfold Engine.refeedCheck
  split
  · exact hset _
  · split
    · exact h.updTake.queueEvent.syncConditions
    · exact h.same rfl rfl
    · exact hset _
    · exact (hset _).findExhausted

theorem reducerStep {x : Front} {e' : Engine} (h : Grows a e) (he : e.reducerStep x = some e') : Grows a e' := by
  unfold Engine.reducerStep at he
  split at he
  · cases he
    have hfree : Grows a (e.setCheck none) := h.same rfl rfl
    unfold Engine.reducerCheck
    split
    · exact hfree
    · split
      · exact h.same rfl rfl
      · exact h.same rfl rfl
      · exact hfree.decideBrowse
      · exact hfree.decideBrowse
  · cases he
  · split at he
    · cases he
    · obtain ⟨p, -, rfl⟩ := Option.map_eq_some_iff.mp he
      exact h.same rfl rfl

theorem writerAct {x : Front} {t : Take} {w : WriterFinding} (h : Grows a e) : Grows a (e.writerAct x t w) := by
  have hfree : Grows a (e.setInHand none) := h.same rfl rfl
  cases w with
  | pass => exact hfree
  | write => exact h.same rfl rfl
  | read n => exact h.same rfl rfl
  | starve => exact hfree.updTake.syncConditions
  | exhaust => exact hfree.findExhausted

theorem writerStep {x : Front} {e' : Engine} (h : Grows a e) (he : e.writerStep x = some e') : Grows a e' := by
  unfold Engine.writerStep at he
  split at he
  · cases he
    unfold Engine.writerCheck
    split
    · exact h.same rfl rfl
    · exact h.writerAct
  · cases he
  · obtain ⟨t, -, rfl⟩ := Option.map_eq_some_iff.mp he
    exact h.writerAct

theorem blockStep {x : Front} {e' : Engine} (h : Grows a e) (he : e.blockStep x = some e') : Grows a e' := by
  unfold Engine.blockStep at he
  rcases Option.or_eq_some_iff.mp he with he | ⟨-, he⟩
  · exact h.refeedStep he
  · rcases Option.or_eq_some_iff.mp he with he | ⟨-, he⟩
    · exact h.moverStep he
    · rcases Option.or_eq_some_iff.mp he with he | ⟨-, he⟩
      · exact h.reducerStep he
      · exact h.writerStep he

end Grows

end Engine

/-- With a quiet Attention Unit, the acts of a step keep what the blocks' and the Arbiter's acts keep, and the front. -/
theorem State.settleFor_of_quiet {P : Engine → Prop} {s : State} (hq : s.front.attention.quiet = true)
    (hblock : ∀ e e', P e → e.blockStep s.front = some e' → P e')
    (hgrant : ∀ e e', P e → e.arbiterStep s.front = some e' → P e') (hs : P s.eng) (n : Nat) :
    (s.settleFor n).front = s.front ∧ P (s.settleFor n).eng := by
  refine State.settleFor_keeps (P := fun t => t.front = s.front ∧ P t.eng) ?_ n ⟨rfl, hs⟩
  rintro t t' ⟨hf, ht⟩ h
  rw [← hf] at hq
  rcases State.unitStep_cases h with h | ⟨e, he, rfl⟩ | h | ⟨e, he, rfl⟩
  · rw [State.serveStep_of_quiet hq] at h
    cases h
  · exact ⟨hf, hblock _ _ ht (hf ▸ he)⟩
  · rw [State.refillStep_of_quiet hq] at h
    cases h
  · exact ⟨hf, hgrant _ _ ht (hf ▸ he)⟩

theorem State.settleFor_front {s : State} (hq : s.front.attention.quiet = true) (n : Nat) :
    (s.settleFor n).front = s.front :=
  (State.settleFor_of_quiet (P := fun _ => True) hq (fun _ _ _ _ => trivial) (fun _ _ _ _ => trivial) trivial n).1

/-- With a quiet Attention Unit and a busy link, the acts of a step take no write from the write list. -/
theorem State.settleFor_grows {s : State} (hq : s.front.attention.quiet = true) (hb : s.linkBusy = true) (n : Nat) :
    s.eng.Grows (s.settleFor n).eng := by
  refine (State.settleFor_of_quiet hq (fun e e' h he => h.blockStep he) (fun e e' h he => ?_) (.refl s.eng) n).2
  rw [Engine.arbiterStep_of_busy _ (by rw [h.busy]; exact hb)] at he
  cases he

end Sys2Proof.Machine
end


section
/-! Requests served in the step they are taken: the four that read host memory, START and STANDBY (R36, R157 to R167). -/

namespace Sys2Proof.Machine

/-! ## The Attention Unit serves -/

theorem State.settleFor_of_unitStep {s : State} (h : s.unitStep = none) (n : Nat) : s.settleFor n = s := by
  cases n with
  | zero => rfl
  | succ n => rw [State.settleFor, h]

/-- The Attention Unit's act is a step's first. -/
theorem State.settle_of_serveStep {s s' : State} (h : s.serveStep = some s') : ∃ n, s.settle = s'.settleFor n := by
  have hunit : s.unitStep = some s' := by rw [State.unitStep, h]; rfl
  refine ⟨s.settleFuel - 1, ?_⟩
  have hfuel : s.settleFuel = s.settleFuel - 1 + 1 := by unfold State.settleFuel; omega
  rw [State.settle, hfuel, State.settleFor, hunit]
  rfl

/-- A part at rest with a busy link is at rest again once a request is in service, when the blocks' work stays and no REFILL
is done. -/
theorem State.unitStep_of_service {s s' : State} (h : s.atRest = true) (hb : s.linkBusy = true)
    (hs : s'.front.attention.service.isSome = true) (hw : s.eng.SameWork s'.eng)
    (hr : ∀ f : FeedId, s'.front.attention.pending[f] = some ⟨.refill, true⟩ → s'.eng.port.refillWaits f = true) :
    s'.unitStep = none := by
  have h : s.unitStep = none := by simpa [State.atRest] using h
  rw [State.unitStep_eq_none_iff]
  exact ⟨(State.serveStep_eq_none_iff s').mpr (.inl hs), (hw.blockStep _ _).mpr (s.unitStep_eq_none_iff.mp h).2.1,
    (State.refillStep_eq_none_iff s').mpr hr, Engine.arbiterStep_of_busy _ (by rw [hw.busy]; exact hb)⟩

theorem Engine.askRead_sameWork (e : Engine) (r : ReadRequest) : e.SameWork (e.askRead r) :=
  ⟨rfl, rfl, rfl, rfl, rfl, rfl, rfl, rfl⟩

theorem Port.refillWaits_askRead {e : Engine} {f : FeedId} (h : e.port.refillWaits f = true) (r : ReadRequest) :
    (e.askRead r).port.refillWaits f = true := by
  simp only [Port.refillWaits, Engine.askRead_port, List.any_append, Bool.or_eq_true] at h ⊢
  tauto

/-! ## Nothing requested -/

theorem Attention.clear_iff (u : Attention) : u.clear = true ↔
    u.service = none ∧ u.global = none ∧ ∀ f : FeedId, u.pending[f] = none := by
  simp [Attention.clear, and_assoc]

/-! ## Requests that read (R73, R157, R158) -/

theorem maskFeeds_maskOf : ∀ f : FeedId, maskFeeds (maskOf f) = [f] := by decide

theorem maskOf_ne_zero : ∀ f : FeedId, maskOf f ≠ 0 := by decide

theorem mem_feedsAfter : ∀ (last : Option FeedId) (f : FeedId), f ∈ feedsAfter last := by decide

/-- The one feed whose request waits is served next (R162). -/
theorem Attention.nextFeed_of_one {u : Attention} {f : FeedId} {q : FeedRequest} (hf : u.pending[f] = some ⟨q, false⟩)
    (hg : ∀ g : FeedId, g ≠ f → u.pending[g] = none) : u.nextFeed = some (f, q) := by
  cases h : u.nextFeed with
  | none =>
    have hnone := List.findSome?_eq_none_iff.mp h f (mem_feedsAfter _ f)
    rw [hf] at hnone
    cases hnone
  | some p =>
    obtain ⟨g, -, hp⟩ := List.exists_of_findSome?_eq_some h
    by_cases hgf : g = f
    · rw [hgf, hf] at hp
      exact hp.symm
    · rw [hg g hgf] at hp
      cases hp

/-- A request for one feed, taken while nothing else is requested, comes in hand and is served (R160, R162). -/
theorem State.attentionFeed_serveStep {f : FeedId} {q : FeedRequest} {s : State}
    (hrun : s.front.attention.part = .running) (hc : s.front.attention.clear = true) :
    (s.attentionFeed q (maskOf f)).serveStep = some
      ((s.onAttention fun u => { u with
        pending := upd u.pending f fun _ => some ⟨q, true⟩, lastServed := some f }).serveFeed f q) := by
  obtain ⟨hservice, hglobal, hpending⟩ := (Attention.clear_iff _).mp hc
  let u := s.onAttention fun u => { u with pending := upd u.pending f fun _ => some ⟨q, false⟩ }
  have htaken : s.attentionFeed q (maskOf f) = u := by
    unfold State.attentionFeed
    rw [if_pos ⟨hrun, maskOf_ne_zero f⟩, maskFeeds_maskOf, List.foldl_cons, List.foldl_nil, State.takeFeed, hpending]
  have hnext : u.front.attention.nextFeed = some (f, q) :=
    Attention.nextFeed_of_one (upd_same ..) fun g hg => (upd_other _ hg _).trans (hpending g)
  have hhand : u.onAttention (Attention.takeInHand f q) = s.onAttention fun u => { u with
      pending := upd u.pending f fun _ => some ⟨q, true⟩, lastServed := some f } := by
    have := upd_upd s.front.attention.pending f (fun _ => some ⟨q, false⟩) fun _ => some ⟨q, true⟩
    simp only [u, State.onAttention, State.onFront, Attention.takeInHand, this]
  rw [htaken, State.serveStep, if_neg (by rw [show u.front.attention.service = none from hservice]; nofun),
    show u.front.attention.global = none from hglobal, hnext, ← hhand]
  rfl

/-- A request that is served by a read: it goes into service, and the step is over. -/
theorem exec_of_readingRequest {f : FeedId} {q : FeedRequest} {c : Instr} {v : Service} {r : ReadRequest} {s : State}
    (hr : s.atRest = true) (hb : s.linkBusy = true) (hrun : s.front.attention.part = .running)
    (hc : s.front.attention.clear = true) (hq : q ≠ .refill) (hexec : exec c s = .next (s.attentionFeed q (maskOf f)).settle)
    (hserve : ∀ u : State, u.front.receivers = s.front.receivers → u.serveFeed f q = u.serveReading v r) :
    exec c s = .next ((s.onAttention fun u => { u with
      pending := upd u.pending f fun _ => some ⟨q, true⟩, lastServed := some f, service := some v }).act
        fun _ e => e.askRead r) := by
  obtain ⟨-, -, hpending⟩ := (Attention.clear_iff _).mp hc
  obtain ⟨n, hn⟩ := State.settle_of_serveStep (State.attentionFeed_serveStep (f := f) (q := q) hrun hc)
  have hread := hserve (s.onAttention fun u => { u with
    pending := upd u.pending f fun _ => some ⟨q, true⟩, lastServed := some f }) rfl
  rw [hexec, hn, hread, State.settleFor_of_unitStep]
  · rfl
  · refine State.unitStep_of_service hr hb rfl (Engine.askRead_sameWork s.eng r) fun g hg => ?_
    have hpg : (upd s.front.attention.pending f fun _ => some ⟨q, true⟩)[g] = some ⟨.refill, true⟩ := hg
    rw [upd_get] at hpg
    split at hpg
    · cases hpg
      exact absurd rfl hq
    · rw [hpending g] at hpg
      cases hpg

/-! ## Global requests (R161, R166, R167) -/

theorem State.onAttention_self {s : State} {g : Attention → Attention} (h : g s.front.attention = s.front.attention) :
    s.onAttention g = s := by
  show { s with front := { s.front with attention := g s.front.attention } } = s
  rw [h]

/-- A global request taken while nothing else is requested is served (R161, R162). -/
theorem State.attentionGlobal_serveStep {q : GlobalRequest} {s : State} (hrun : s.front.attention.part = .running)
    (hc : s.front.attention.clear = true) : (s.attentionGlobal q).serveStep = some (s.serveGlobal q) := by
  obtain ⟨hservice, hglobal, -⟩ := (Attention.clear_iff _).mp hc
  unfold State.attentionGlobal State.takeGlobal
  rw [hrun, hglobal]
  dsimp only
  rw [State.serveStep, if_neg (by rw [State.onAttention_attention, hservice]; nofun)]
  rfl

/-- The waiting global request is gone when it is served. -/
theorem State.onAttention_global {s : State} (hc : s.front.attention.clear = true) :
    (s.onAttention fun u => { u with global := none }) = s := by
  obtain ⟨-, hglobal, -⟩ := (Attention.clear_iff _).mp hc
  exact State.onAttention_self (by rw [← hglobal])

/-- Settles O39. -/
theorem readingRequestsServed : Obligations.ReadingRequestsServed := by
  intro f mask s hr hb hrun hc
  refine ⟨fun p hp harm => ?_, ?_⟩
  · simp only [List.mem_cons, List.not_mem_nil, or_false] at hp
    rcases hp with rfl | rfl | rfl
    · exact exec_of_readingRequest hr hb hrun hc nofun rfl fun u _ => rfl
    · exact exec_of_readingRequest hr hb hrun hc nofun rfl fun u _ => rfl
    · refine exec_of_readingRequest hr hb hrun hc nofun rfl fun u hu => if_pos ?_
      rw [State.receiver_eq, hu]
      exact harm rfl
  · obtain ⟨-, -, hpending⟩ := (Attention.clear_iff _).mp hc
    obtain ⟨n, hn⟩ := State.settle_of_serveStep (State.attentionGlobal_serveStep (q := .timeLoad) hrun hc)
    have hserve : s.serveGlobal .timeLoad = s.serveReading .timeLoad .timeValue := by
      show State.serveReading _ _ (s.onAttention fun u => { u with global := none }) = _
      rw [State.onAttention_global hc]
    show Host.Outcome.next (s.attentionGlobal .timeLoad).settle = _
    rw [hn, hserve, State.settleFor_of_unitStep]
    · rfl
    · refine State.unitStep_of_service hr hb rfl (Engine.askRead_sameWork s.eng _) fun g hg => ?_
      cases (hpending g).symm.trans hg

end Sys2Proof.Machine
end


section
/-! START and STANDBY by part state (R36, R145, R161, R166, R167). -/

namespace Sys2Proof.Machine

/-! ## START in STANDBY (R166) -/

theorem exec_start_of_standby {s : State} (h : s.front.attention.part = .standby) (mask : BitVec 16) :
    exec (.start mask) s = .next s.startFromStandby.settle := by
  have hstart : s.attentionGlobal .start = s.startFromStandby := by
    unfold State.attentionGlobal
    rw [h]
    rfl
  show Host.Outcome.next (s.attentionGlobal .start).settle = _
  rw [hstart]

/-! ## Global requests in RUNNING (R161, R162) -/

/-- A global request that ends with its service: the front after the step is the one its service leaves. -/
theorem State.settle_attentionGlobal {q : GlobalRequest} {s : State} (hrun : s.front.attention.part = .running)
    (hc : s.front.attention.clear = true) (hq : (s.serveGlobal q).front.attention.quiet = true) :
    (s.attentionGlobal q).settle.front = (s.serveGlobal q).front ∧
      ((s.serveGlobal q).linkBusy = true → (s.serveGlobal q).eng.Grows (s.attentionGlobal q).settle.eng) := by
  obtain ⟨n, hn⟩ := State.settle_of_serveStep (State.attentionGlobal_serveStep (q := q) hrun hc)
  rw [hn]
  exact ⟨State.settleFor_front hq n, fun hb => State.settleFor_grows hq hb n⟩

/-- A global request that is answered at once, while nothing else is requested. -/
theorem State.settle_attentionGlobal_answered {q : GlobalRequest} {r : Result} {s : State}
    (hrun : s.front.attention.part = .running) (hc : s.front.attention.clear = true)
    (hserve : s.serveGlobal q = s.globalAnswer q r) :
    (s.attentionGlobal q).settle.front = (s.globalAnswer q r).front := by
  obtain ⟨-, hglobal, hpending⟩ := (Attention.clear_iff _).mp hc
  have hquiet : (s.globalAnswer q r).front.attention.quiet = true := Attention.quiet_of_none hglobal hpending
  rw [← hserve] at hquiet ⊢
  exact (State.settle_attentionGlobal hrun hc hquiet).1

theorem State.serveGlobal_start {s : State} (hc : s.front.attention.clear = true) :
    s.serveGlobal .start = s.globalAnswer .start .refusedState := by
  show (s.onAttention fun u => { u with global := none }).globalAnswer .start .refusedState = _
  rw [State.onAttention_global hc]

theorem State.serveGlobal_standby {s : State} (hc : s.front.attention.clear = true) : s.serveGlobal .standby =
    if s.front.anyEnabled then s.globalAnswer .standby .refusedState else s.takeStandby := by
  unfold State.serveGlobal
  dsimp only
  rw [State.onAttention_global hc]

theorem Front.anyEnabled_iff (x : Front) : x.anyEnabled = true ↔ ∃ f : FeedId, x.receivers[f].enabled = true := by
  simp [Front.anyEnabled]

/-! ## STANDBY is taken (R167) -/

/-- With no feed request, STANDBY refuses none. -/
theorem State.refuseWaiting_of_none {s : State} (h : ∀ f : FeedId, s.front.attention.pending[f] = none)
    (l : List FeedId) : l.foldl State.refuseWaiting s = s := by
  induction l with
  | nil => rfl
  | cons f l ih =>
    have hf : s.refuseWaiting f = s := by
      unfold State.refuseWaiting
      rw [h f]
    rw [List.foldl_cons, hf, ih]

theorem State.abandonLoad_of_none {s : State} (h : s.front.pendingLoad = none) : s.abandonLoad = s := by
  unfold State.abandonLoad
  rw [h]

theorem State.abandonLoad_of_some {s : State} (h : s.front.pendingLoad ≠ none) : s.abandonLoad =
    (s.onFront fun x => { x with pendingLoad := none }).globalAnswer .timeLoad .superseded := by
  unfold State.abandonLoad
  cases hl : s.front.pendingLoad with
  | none => exact absurd hl h
  | some l => rfl

theorem State.takeStandby_of_clear {s : State} (hc : s.front.attention.clear = true) :
    s.takeStandby = ((s.abandonLoad.act fun _ e => e.toStandby).globalAnswer .standby .done).enterStandby := by
  obtain ⟨-, -, hpending⟩ := (Attention.clear_iff _).mp hc
  have hpend : ∀ f : FeedId, s.abandonLoad.front.attention.pending[f] = none := by
    by_cases hl : s.front.pendingLoad = none
    · rw [State.abandonLoad_of_none hl]
      exact hpending
    · rw [State.abandonLoad_of_some hl]
      exact hpending
  unfold State.takeStandby
  rw [State.refuseWaiting_of_none hpend]

/-- The front once STANDBY is taken. -/
theorem State.takeStandby_front {s : State} (hc : s.front.attention.clear = true) : s.takeStandby.front = { s.front with
    pendingLoad := none
    attention := { s.front.attention with
      part := .standby
      answer := ⟨s.front.attention.answer.taken + (if s.front.pendingLoad.isSome then 2 else 1),
        some .standby, some .done⟩ } } := by
  have htwo : s.front.attention.answer.taken + 1 + 1 = s.front.attention.answer.taken + 2 := by
    rw [BitVec.add_assoc]; rfl
  rw [State.takeStandby_of_clear hc]
  by_cases hl : s.front.pendingLoad = none
  · rw [State.abandonLoad_of_none hl, hl, if_neg (by nofun), ← hl]
    rfl
  · rw [State.abandonLoad_of_some hl, if_pos (Option.isSome_iff_ne_none.mpr hl), ← htwo]
    rfl

/-! ### The write list at STANDBY (R145) -/

/-- What STANDBY takes from the write list are sheet writes, and so no global answer. -/
theorem Engine.dropEndings_writes (l : List Nat) (e : Engine) : ∃ p : WriteRequest → Bool,
    (∀ a, p (.globalAnswer a) = true) ∧ (l.foldl Engine.dropEnding e).port.writes = e.port.writes.filter p := by
  induction l generalizing e with
  | nil => exact ⟨fun _ => true, fun _ => rfl, (List.filter_true _).symm⟩
  | cons n l ih =>
    obtain ⟨p, hp, hw⟩ := ih (e.dropEnding n)
    refine ⟨fun w => (!w.ofTake n) && p w, fun a => hp a, ?_⟩
    rw [List.foldl_cons, hw]
    show (e.port.writes.filter fun w => !w.ofTake n).filter p = _
    rw [List.filter_filter]
    exact List.filter_congr fun w _ => Bool.and_comm ..

theorem Engine.dropEndings_busy (l : List Nat) (e : Engine) :
    (l.foldl Engine.dropEnding e).arbiter.busy = e.arbiter.busy := by
  induction l generalizing e with
  | nil => rfl
  | cons n l ih => rw [List.foldl_cons, ih]; rfl

/-- STANDBY's answer stands behind the answers that waited, and behind the abandoned load's (R36, R145). -/
theorem State.takeStandby_writes {s : State} (hc : s.front.attention.clear = true) :
    ∃ before behind, s.takeStandby.eng.port.writes = before ++
        .globalAnswer ⟨s.takeStandby.front.attention.answer.taken, some .standby, some .done⟩ :: behind ∧
      (s.front.pendingLoad ≠ none → .globalAnswer ⟨s.front.attention.answer.taken + 1, some .timeLoad, some .superseded⟩ ∈
        before) := by
  let u := s.abandonLoad.act fun _ e => e.toStandby
  obtain ⟨tail, htail⟩ := u.globalAnswer_writes .standby .done
  obtain ⟨p, hp, hw⟩ := s.abandonLoad.eng.dropEndings_writes
    (s.abandonLoad.eng.places.toList.map (·.ending)).flatten
  rw [State.takeStandby_of_clear hc]
  refine ⟨u.eng.port.writes, tail, htail, fun hl => ?_⟩
  show _ ∈ (List.foldl Engine.dropEnding s.abandonLoad.eng _).port.writes
  obtain ⟨rest, hload⟩ := (s.onFront fun x => { x with pendingLoad := none }).globalAnswer_writes .timeLoad .superseded
  rw [hw, List.mem_filter, State.abandonLoad_of_some hl, hload]
  exact ⟨List.mem_append_right _ List.mem_cons_self, hp _⟩

theorem State.takeStandby_linkBusy {s : State} (hc : s.front.attention.clear = true) (hb : s.linkBusy = true) :
    s.takeStandby.linkBusy = true := by
  have hload : s.abandonLoad.eng.arbiter.busy = s.eng.arbiter.busy := by
    by_cases hl : s.front.pendingLoad = none
    · rw [State.abandonLoad_of_none hl]
    · rw [State.abandonLoad_of_some hl, (State.globalAnswer_sameWork ..).busy]
      rfl
  have hbusy : s.takeStandby.eng.arbiter.busy = s.eng.arbiter.busy := by
    rw [State.takeStandby_of_clear hc, ← hload]
    exact ((s.abandonLoad.act fun _ e => e.toStandby).globalAnswer_sameWork .standby .done).busy.trans
      (Engine.dropEndings_busy _ _)
  unfold State.linkBusy
  rw [hbusy]
  exact hb

/-- Settles O40. -/
theorem startAndStandbyResult : Obligations.StartAndStandbyResult := by
  intro mask s
  refine ⟨fun hr hb hpart hbase halign => ?_, fun hr hpart hbase => ?_, fun hrun hc => ⟨?_, fun hon => ?_, fun hoff => ?_⟩⟩
  · have hstart : s.startFromStandby = (s.onAttention fun u => { u with part := .starting, service := some .start }).act
        fun _ e => e.askRead .pageHeader := if_neg (by tauto)
    have hrest : s.unitStep = none := by simpa [State.atRest] using hr
    rw [exec_start_of_standby hpart, hstart, State.settle_of_unitStep]
    refine State.unitStep_of_service hr hb rfl (Engine.askRead_sameWork s.eng _) fun f hf => ?_
    exact Port.refillWaits_askRead ((State.refillStep_eq_none_iff s).mp (s.unitStep_eq_none_iff.mp hrest).2.2.1 f hf) _
  · let u := s.onFlags fun g => { g with pageFault := true }
    have hstart : s.startFromStandby = u := if_pos hbase
    have hsettle : u.settle = u := State.settle_of_front hr rfl rfl
    rw [exec_start_of_standby hpart, hstart, hsettle]
  · exact ⟨_, rfl, (State.settle_attentionGlobal_answered hrun hc (State.serveGlobal_start hc)).trans rfl⟩
  · have hserve := State.serveGlobal_standby hc
    rw [if_pos ((Front.anyEnabled_iff _).mpr hon)] at hserve
    exact ⟨_, rfl, (State.settle_attentionGlobal_answered hrun hc hserve).trans rfl⟩
  · have hserve := State.serveGlobal_standby hc
    rw [if_neg (by rw [Front.anyEnabled_iff]; rintro ⟨f, hf⟩; rw [hoff f] at hf; cases hf)] at hserve
    obtain ⟨-, hglobal, hpending⟩ := (Attention.clear_iff _).mp hc
    have hfront := State.takeStandby_front hc
    have hquiet : (s.serveGlobal .standby).front.attention.quiet = true := by
      rw [hserve, hfront]
      exact Attention.quiet_of_none hglobal hpending
    obtain ⟨hsettled, hgrows⟩ := State.settle_attentionGlobal hrun hc hquiet
    rw [hserve] at hsettled hgrows
    obtain ⟨before, behind, hwrites, hload⟩ := State.takeStandby_writes hc
    refine ⟨_, rfl, hsettled.trans hfront, fun hb => ?_⟩
    obtain ⟨later, hlater⟩ := (hgrows (State.takeStandby_linkBusy hc hb)).writes
    have htaken : s.takeStandby.front.attention.answer.taken =
        s.front.attention.answer.taken + (if s.front.pendingLoad.isSome then 2 else 1) := by rw [hfront]
    rw [hwrites, htaken, List.append_assoc, List.cons_append] at hlater
    refine ⟨fun hl => ?_, fun hl => ?_⟩
    · rw [← hlater, hl]
      exact List.mem_append_right _ List.mem_cons_self
    · obtain ⟨first, between, hsplit⟩ := List.append_of_mem (hload hl)
      refine ⟨first, between, behind ++ later, ?_⟩
      rw [← hlater, hsplit, if_pos (Option.isSome_iff_ne_none.mpr hl), List.append_assoc]

end Sys2Proof.Machine
end


section
/-! The Reference Timer and the Timecode Unit at an accepted header (R28, R30, R32, R43, R44). -/

namespace Sys2Proof.Machine

/-! ## Captures (R28, R30) -/

/-- The newest capture stands behind at most eight older ones. -/
theorem pushCapture_eq (c : Count) (l : List Count) : pushCapture c l = l.drop (l.length - 8) ++ [c] := by
  have hk : l.length + 1 - 9 = l.length - 8 := by omega
  rw [pushCapture, hk, List.drop_append_of_le_length (by omega)]

theorem measuredPeriod_of_short {l : List Count} (h : l.length < 9) : measuredPeriod l = none := by
  unfold measuredPeriod
  split
  · exact if_neg (by omega)
  · rfl

/-- The measured period of a full history is an eighth of the time from its oldest capture to its newest. -/
theorem measuredPeriod_of_full {c oldest : Count} {l : List Count} (h : 9 ≤ (pushCapture c l).length)
    (ho : (pushCapture c l).head? = some oldest) :
    measuredPeriod (pushCapture c l) = some ((c - oldest).toNat / 8) := by
  have hlast : (pushCapture c l).getLast? = some c := by rw [pushCapture_eq, List.getLast?_concat]
  unfold measuredPeriod
  rw [ho, hlast]
  exact if_pos h

/-- A capture without a full history leaves the measured period and the cadence condition. -/
theorem FeedTimer.capture_of_short {n : Settings} {c : Count} {t : FeedTimer} (h : (pushCapture c t.history).length < 9) :
    (t.capture n c).measured = t.measured ∧ (t.capture n c).cadenceOff = t.cadenceOff := by
  unfold FeedTimer.capture
  dsimp only
  rw [measuredPeriod_of_short h]
  exact ⟨rfl, rfl⟩

/-- A capture that fills the history gives the measured period and the cadence condition. -/
theorem FeedTimer.capture_of_full {n : Settings} {c oldest : Count} {t : FeedTimer}
    (h : 9 ≤ (pushCapture c t.history).length) (ho : (pushCapture c t.history).head? = some oldest) :
    (t.capture n c).measured = some ((c - oldest).toNat / 8) ∧
      (t.capture n c).cadenceOff = !inTolerance n.rate n.tolerance ((c - oldest).toNat / 8) := by
  unfold FeedTimer.capture
  dsimp only
  rw [measuredPeriod_of_full h ho]
  exact ⟨rfl, rfl⟩

theorem not_inTolerance (c : RateClass) (tol d : Nat) :
    (!inTolerance c tol d) = decide (tol * c.pnom < distance d c.pnom * 10000) := by
  rw [inTolerance, ← decide_not]
  exact decide_eq_decide.mpr not_le

/-! ## The judgement leaves the placement -/

theorem Receiver.answered_keeps (r : Receiver) (v : Verdict) :
    (r.answered v).expected = r.expected ∧ (r.answered v).inHeader = r.inHeader := by
  cases v <;> exact ⟨rfl, rfl⟩

/-- The judgement of a header leaves the feed's expectation, and no header in progress. -/
theorem State.judgeHeader_keeps (f : FeedId) (h : HeaderFields) (p : Placed) (s : State) :
    (s.judgeHeader f h p).front.receivers[f].expected = s.front.receivers[f].expected ∧
      (s.judgeHeader f h p).front.receivers[f].inHeader = s.front.receivers[f].inHeader := by
  have hown : ∀ g : Receiver → Receiver, (g s.front.receivers[f]).expected = s.front.receivers[f].expected →
      (g s.front.receivers[f]).inHeader = s.front.receivers[f].inHeader →
      (s.onReceiver f g).front.receivers[f].expected = s.front.receivers[f].expected ∧
        (s.onReceiver f g).front.receivers[f].inHeader = s.front.receivers[f].inHeader := by
    intro g hexpected hheader
    rw [State.onReceiver_front, Front.updReceiver_receivers, upd_same]
    exact ⟨hexpected, hheader⟩
  have hadmit : ∀ u : State, (u.admitFrame f p).front.receivers[f].expected = u.front.receivers[f].expected ∧
      (u.admitFrame f p).front.receivers[f].inHeader = u.front.receivers[f].inHeader := by
    intro u
    rw [State.admitFrame_front, Front.updReceiver_receivers, upd_same]
    exact Receiver.answered_keeps _ _
  have hlock : (s.lock f).front.receivers[f].expected = s.front.receivers[f].expected ∧
      (s.lock f).front.receivers[f].inHeader = s.front.receivers[f].inHeader := by
    rw [State.lock_front, Front.updReceiver_receivers, upd_same]
    exact ⟨rfl, rfl⟩
  unfold State.judgeHeader
  dsimp only
  split
  · split
    · exact ⟨rfl, rfl⟩
    · exact hadmit s
    · split
      · exact ⟨(hadmit _).1.trans hlock.1, (hadmit _).2.trans hlock.2⟩
      · exact hown _ rfl rfl
  · exact hown _ rfl rfl

/-- Settles O18. -/
theorem frameHeaderTimerResult : Obligations.FrameHeaderTimerResult := by
  intro f chars n s he hs hh hw hn hc hg hq old history label placed
  obtain ⟨a, hfront, heng, hset, hrec, hexec⟩ := execFrameHeader_of_none he hs hh hw hn hc hg
  let b := a.captured f (parseHeader chars)
  let p := a.place f (parseHeader chars)
  let t := b.judgeHeader f (parseHeader chars) p
  obtain ⟨g, hjudged⟩ := State.judgeHeader_front f (parseHeader chars) p b
  have hplaced : p = placed := by
    rw [show p = _ from State.place_eq hset chars, hrec]
  have hbfront : b.front = _ := State.captured_front f (parseHeader chars) a
  have htimers : t.front.timers = b.front.timers := by rw [hjudged]; rfl
  have hsettle : t.settle.front = t.front := State.settle_front_of_quiet (by
    rw [hjudged, Front.updReceiver_attention, State.captured_attention, hfront]; exact hq)
  have htimer : t.settle.front.timers[f] = old.capture n s.front.refCount := by
    rw [hsettle, htimers, State.captured_timer, hset, hfront]
    rfl
  have hhistory : pushCapture s.front.refCount old.history = history := by
    have hk : old.history.length + 1 - 9 = old.history.length - 8 := by omega
    rw [pushCapture, hk]
  obtain ⟨hexpected, hheader⟩ := State.judgeHeader_keeps f (parseHeader chars) p b
  rw [State.captured_receiver, hrec, hset] at hexpected hheader
  refine ⟨t.settle, hexec, ?_, ?_, fun hshort => ?_, fun hfull oldest ho => ?_, ?_, ?_, ?_, ?_, fun k hk => ?_⟩
  · rw [htimer, FeedTimer.capture_history, hhistory]
  · rw [htimer, FeedTimer.capture_deadline]
  · rw [htimer]
    exact FeedTimer.capture_of_short (by rw [hhistory]; exact hshort)
  · rw [htimer, ← not_inTolerance]
    exact FeedTimer.capture_of_full (by rw [hhistory]; exact hfull) (by rw [hhistory]; exact ho)
  · rw [hsettle, hexpected, ← hplaced]
    rfl
  · rw [hsettle, hheader]
  · rw [hsettle, hjudged, hbfront, hfront]
    rfl
  · rw [hsettle, hjudged, hbfront, hfront]
    rfl
  · rw [hsettle, hjudged, hbfront, hfront]
    simp only [Front.updReceiver_receivers, Front.updReceiver_timers, Front.updTimer_receivers, Front.updTimer_timers]
    exact ⟨by rw [upd_other _ hk, upd_other _ hk, upd_other _ hk], upd_other _ hk _⟩

end Sys2Proof.Machine
end


section
/-! A header that begins a take can take the record in hand from the Index Writer, which then acts within the step: START
makes room among 488 records by removing the newest event record (R113, R115), and the Writer finds another feed's take
without index room (R93, R94). The places of that feed change. -/

namespace Sys2Proof.Machine

namespace StartWithdraws

/-- The settings of both feeds. -/
def settings : Settings := ⟨.marked, .fps25, 256, 144, 0, 0, 1, 1, 1, 2, 2, 1, false, 0, 0, 0⟩

/-- A Frame Header of these settings, without a label. -/
def header : List Byte := [1, 0, 0, 1, 144, 0, 0, 0, 0, 0, 0x37, 0xA6]

/-- A take of feed `f` with one page of index space, room for 128 records, from the last index entry consumed, `entry`. -/
def take (id : Nat) (f : FeedId) (state : TakeState) (entry indexWritten : Nat) (queue : List Record) : Take :=
  { Take.fresh id f (BitVec.ofNat 64 (2048 * (id + 1))) ⟨0, true, .immediate, 0, .onRequest, 0, 1, 1, entry + 1⟩ entry
      (0x100000, 1) [] with state, indexWritten, queue }

/-- Feed 0's first Closing take, index-starved: 485 event records and END wait. -/
def older : Take :=
  { take 0 0 .closing 0 127 ((List.range 485).map (fun n => ⟨n, .linkBack 0⟩) ++ [⟨485, .endRecord⟩]) with
    indexStarved := true }

/-- Feed 0's second Closing take: the feed's newest event record, which the Index Writer has in hand, and END. These are
the feed's 487th and 488th records. -/
def newer : Take := take 1 0 .closing 0 1 [⟨486, .linkBack 0⟩, ⟨487, .endRecord⟩]

/-- Feed 1's RECORDING take: all eight index entries are consumed, and only END's place is left. Its frame in slot 95 is
being moved, and waits for a browse entry. -/
def other : Take :=
  { take 2 1 .recording 7 127 [⟨488, .linkBack 0⟩, ⟨489, .frame ⟨100, .zero, 0, true, 95, none⟩⟩] with
    position := 101, firstFrame := true, lastDay := some 0, geom := some settings.geometry
    essence := ⟨1, 1, [⟨0, 0x200000, 4096⟩]⟩ }

/-- Feed 0's ARMED take, which begins on the frame. -/
def armed : Take := take 3 0 .armed 0 0 []

/-- The link sends the read of the browse entry, and every block waits. -/
def state : State where
  pending := []
  front := { Front.reset with
    receivers := upd Front.reset.receivers 0 fun r =>
      { r with enabled := true, signal := true, link := .locked, inHeader := true, active := some settings } }
  eng := { Engine.reset with
    takes := [older, newer, other, armed]
    nextId := 4
    nextSeq := 490
    places := upd (upd Engine.reset.places 0 fun p => { p with live := some 3, closing := [0, 1] }) 1 fun p =>
      { p with live := some 2 }
    slots := upd Engine.reset.slots 95 fun _ =>
      some ⟨.ready, 1, 2, 100, false, false, 0, .moving, .undecided, some (0, 0xE10000)⟩
    held := upd Engine.reset.held 1 fun _ => [95]
    mover := ⟨.moving 95 0, some 1⟩
    reducer := { Engine.reset.reducer with check := some (95, .waiting), lastServed := some 1 }
    writer := ⟨some (1, .asking), some 1⟩
    port := ⟨[], [], some ⟨0, .entry .browse 2 0x1800 0, readLimit, true⟩, 1⟩
    arbiter := ⟨some ⟨.recordPort, .read 0x1B00 16, none⟩, .none⟩ }

/-- The part once the header is accepted and the step is over. -/
def result : State := (state.acceptHeader 0 (parseHeader header)).settle

theorem exec_header : exec (.frameHeader 0 header) state = .next result := by
  rw [execFrameHeader_of_inHeader rfl rfl rfl rfl, if_pos (by decide +kernel)]
  rfl

/-- Feed 1's take has closed ROOM_EXHAUSTED at feed 0's header. -/
theorem result_places : result.eng.places[1] = { Places.none with closing := [2] } ∧
    (result.eng.take? 2).map (·.reason) = some (some .roomExhausted) := by decide +kernel

end StartWithdraws

/-- Refutes O23: without a bound on the feed's records, a begin can change the places of another feed. -/
theorem not_frameHeaderBeginsTake : ¬ Obligations.FrameHeaderBeginsTake := by
  intro h
  obtain ⟨hbegins, -⟩ := h 0 StartWithdraws.header StartWithdraws.settings StartWithdraws.armed StartWithdraws.state
    rfl rfl rfl rfl rfl rfl rfl (by decide +kernel) (by decide +kernel) (by decide +kernel) (by decide +kernel) rfl rfl rfl
    rfl rfl nofun (by decide +kernel) (by decide +kernel)
  obtain ⟨t, k', hexec, -, -, -, -, -, -, -, hplaces, -⟩ := hbegins (.inl rfl)
  have ht : StartWithdraws.result = t := by
    rw [StartWithdraws.exec_header] at hexec
    injection hexec
  have hbefore : StartWithdraws.state.eng.places[1] = { Places.none with live := some 2 } := by decide +kernel
  rw [← hplaces, ← ht, StartWithdraws.result_places.1] at hbefore
  exact absurd hbefore (by decide)

end Sys2Proof.Machine
end


section
/-! Take contexts apart from their queues: what closing, deferring, beginning, promoting and slotting make of the takes and of
the places they stand in (R76 to R80, R86, R87). -/

namespace Sys2Proof.Machine

/-! ## Takes without their records -/

/-- A take context without its queue, the index entries held from it, and the count of its discarded records. -/
def Take.core (t : Take) : Take := { t with queue := [], heldRejects := [], eventsDiscarded := 0 }

namespace Engine

/-- The take context numbered `n`, without its records. -/
def core? (e : Engine) (n : Nat) : Option Take := (e.take? n).map Take.core

theorem core?_of_take? {e : Engine} {n : Nat} {t : Take} (h : e.take? n = some t) : e.core? n = some t.core := by
  rw [core?, h, Option.map_some]

theorem take?_of_core? {e : Engine} {n : Nat} {c : Take} (h : e.core? n = some c) : ∃ t, e.take? n = some t ∧ t.core = c :=
  Option.map_eq_some_iff.mp h

theorem id_of_take? {e : Engine} {n : Nat} {t : Take} (h : e.take? n = some t) : t.id = n := by
  simpa using List.find?_some h

theorem map_core? {α : Type} {e : Engine} {n : Nat} {φ : Take → α} (h : ∀ t : Take, φ t.core = φ t) :
    (e.core? n).map φ = (e.take? n).map φ := by
  rw [core?, Option.map_map]
  congr 1
  exact funext h

/-- A change of one take reaches its context alone. -/
theorem core?_updTake {e : Engine} {n : Nat} {g : Take → Take} (hid : ∀ k, (g k).id = k.id)
    (hcore : ∀ k, (g k).core = g k.core) (m : Nat) :
    (e.updTake n g).core? m = if m = n then (e.core? m).map g else e.core? m := by
  rw [core?, Engine.take?_updTake e n m g hid, core?]
  cases h : e.take? m with
  | none => simp
  | some k =>
    have hk : k.id = m := id_of_take? h
    by_cases hmn : m = n <;> simp [hk, hmn, hcore]

/-! ## Operations that leave takes and places -/

/-- The takes without their records, the places and the pool are the same in `u` as in `e`. -/
structure SameTakes (e u : Engine) : Prop where
  cores : ∀ n, u.core? n = e.core? n
  places : u.places = e.places
  slots : u.slots = e.slots
  held : u.held = e.held
  opened : u.opened = e.opened

namespace SameTakes

variable {a e : Engine}

theorem refl (e : Engine) : SameTakes e e := ⟨fun _ => rfl, rfl, rfl, rfl, rfl⟩

theorem trans {u v : Engine} (h : SameTakes e u) (k : SameTakes u v) : SameTakes e v :=
  ⟨fun n => (k.cores n).trans (h.cores n), k.places.trans h.places, k.slots.trans h.slots, k.held.trans h.held,
    k.opened.trans h.opened⟩

theorem ofTakes {u : Engine} (h : SameTakes a e) (ht : u.takes = e.takes) (hp : u.places = e.places)
    (hs : u.slots = e.slots) (hh : u.held = e.held) (ho : u.opened = e.opened) : SameTakes a u :=
  h.trans ⟨fun n => by rw [core?, core?, take?, take?, ht], hp, hs, hh, ho⟩

/-- A change of a take's records alone. -/
theorem updTake {n : Nat} {g : Take → Take} (h : SameTakes a e) (hid : ∀ k, (g k).id = k.id)
    (hcore : ∀ k, (g k).core = k.core) : SameTakes a (e.updTake n g) := by
  refine h.trans ⟨fun m => ?_, rfl, rfl, rfl, rfl⟩
  rw [core?, Engine.take?_updTake e n m g hid, core?, Option.map_map]
  congr 1
  funext k
  simp only [Function.comp]
  split
  · exact hcore k
  · rfl

theorem ask {w : WriteRequest} (h : SameTakes a e) : SameTakes a (e.ask w) :=
  h.ofTakes (ask_takes ..) (ask_places ..) (ask_slots ..) (ask_held ..) (ask_opened ..)

theorem asksOnly {u : Engine} (h : SameTakes a e) (hu : e.AsksOnly u) : SameTakes a u :=
  h.ofTakes hu.sameWork.takes hu.sameWork.places hu.sameWork.slots hu.sameWork.held hu.opened

theorem withdrawWriter {t : Nat} (h : SameTakes a e) : SameTakes a (e.withdrawWriter t) := by
  rw [Engine.withdrawWriter_eq]
  exact h.ofTakes rfl rfl rfl rfl rfl

theorem makeRoom {f : FeedId} (h : SameTakes a e) : SameTakes a (e.makeRoom f) := by
  unfold Engine.makeRoom Engine.removeNewest
  split
  · split
    · exact h
    · split
      · exact h
      · dsimp only
        refine .updTake ?_ (fun _ => rfl) (fun _ => rfl)
        split
        · exact h.withdrawWriter
        · exact h
  · exact h

theorem bumpSeq (h : SameTakes a e) : SameTakes a e.bumpSeq := h.ofTakes rfl rfl rfl rfl rfl

theorem queueEvent {t : Nat} {b : RecordBody} (h : SameTakes a e) : SameTakes a (e.queueEvent t b) := by
  unfold Engine.queueEvent
  split
  · exact h
  · split
    · exact .bumpSeq (h.updTake (fun _ => rfl) fun _ => rfl)
    · exact .bumpSeq (h.updTake (fun _ => rfl) fun _ => rfl)

theorem queueEvents {t : Nat} {bs : List RecordBody} (h : SameTakes a e) : SameTakes a (e.queueEvents t bs) := by
  induction bs generalizing e with
  | nil => exact h
  | cons b bs ih => exact ih h.queueEvent

theorem queueFrame {t : Nat} {r : FrameRecord} (h : SameTakes a e) : SameTakes a (e.queueFrame t r) :=
  .bumpSeq (h.updTake (fun _ => rfl) fun _ => rfl)

theorem queueStart {f : FeedId} {t : Nat} {r : StartRecord} (h : SameTakes a e) : SameTakes a (e.queueStart f t r) :=
  .bumpSeq (h.makeRoom.updTake (fun _ => rfl) fun _ => rfl)

theorem queueEnd {f : FeedId} {t : Nat} (h : SameTakes a e) : SameTakes a (e.queueEnd f t) :=
  .bumpSeq (h.makeRoom.updTake (fun _ => rfl) fun _ => rfl)

theorem queueBehind {n t : Nat} {bs : List RecordBody} (h : SameTakes a e) : SameTakes a (e.queueBehind n t bs) := by
  unfold Engine.queueBehind
  split
  · exact h
  · dsimp only
    refine SameTakes.ofTakes (e := e.updTake t _) ?_ rfl rfl rfl rfl rfl
    exact h.updTake (fun _ => rfl) fun _ => rfl

end SameTakes

/-! ## The Live take closes, a take begins, is promoted, or gets a frame -/

/-- What a close makes of the take (R86). -/
def closed (reason : CloseReason) (capture : Count) (k : Take) : Take :=
  { k with state := .closing, reason := some reason, endCapture := some capture }

theorem closeLive_sameTakes (f : FeedId) (t : Take) (reason : CloseReason) (capture : Count) (e : Engine) :
    SameTakes ((e.updPlaces f fun p => { p with live := none, closing := p.closing ++ [t.id] }).updTake t.id
      (closed reason capture)) (e.closeLive f t reason capture) :=
  .ask (.ask (.ask (.queueEnd (.refl _))))

theorem closeLive_core? (f : FeedId) (t : Take) (reason : CloseReason) (capture : Count) (e : Engine) (n : Nat) :
    (e.closeLive f t reason capture).core? n =
      if n = t.id then (e.core? n).map (closed reason capture) else e.core? n := by
  rw [(closeLive_sameTakes ..).cores]
  exact core?_updTake (g := closed reason capture) (fun _ => rfl) (fun _ => rfl) n

theorem closeLive_places (f : FeedId) (t : Take) (reason : CloseReason) (capture : Count) (e : Engine) :
    (e.closeLive f t reason capture).places[f] =
      { e.places[f] with live := none, closing := e.places[f].closing ++ [t.id] } := by
  rw [(closeLive_sameTakes ..).places]
  exact upd_same ..

theorem mem_ask {w : WriteRequest} (h : w.merges = false) (e : Engine) : w ∈ (e.ask w).port.writes := by
  unfold Engine.ask
  rw [h]
  exact List.mem_append_right _ (List.mem_singleton_self w)

theorem Grows.mem {e u : Engine} (h : e.Grows u) {w : WriteRequest} (hw : w ∈ e.port.writes) : w ∈ u.port.writes :=
  h.writes.subset hw

/-- CLOSING is asked at a close (R86). -/
theorem closeLive_writes (f : FeedId) (t : Take) (reason : CloseReason) (capture : Count) (e : Engine) :
    .sheetState t.id t.sheet .closing ∈ (e.closeLive f t reason capture).port.writes :=
  (Grows.refl _).ask.mem (mem_ask (w := .sheetState t.id t.sheet .closing) rfl _)

/-- What a deferred stop makes of the take (R87). -/
theorem deferStop_core? (f : FeedId) (t : Take) (reason : CloseReason) (e : Engine) (n : Nat) :
    (e.deferStop f t reason).core? n =
      if n = t.id then (e.core? n).map (fun k => { k with deferredStops := k.deferredStops + 1 }) else e.core? n :=
  core?_updTake (e := e.updPlaces f fun p => { p with deferredStop := some reason })
    (g := fun k => { k with deferredStops := k.deferredStops + 1 }) (fun _ => rfl) (fun _ => rfl) n

theorem deferStop_places (f : FeedId) (t : Take) (reason : CloseReason) (e : Engine) :
    (e.deferStop f t reason).places[f] = { e.places[f] with deferredStop := some reason } := upd_same ..

/-- What a begin on a frame makes of the take (R79). -/
def begun (geom : Geometry) (capture : Count) (tc : Timecode) (k : Take) : Take :=
  { k with
    state := .recording, beginFrame := some (capture, tc), startCapture := some capture, geom := some geom }

theorem beginTake_sameTakes {x : Front} {f : FeedId} {n : Nat} {capture : Count} {tc : Timecode} {e : Engine} {k : Take}
    (hk : e.take? n = some k) :
    SameTakes (e.updTake n (begun (x.settings f).geometry capture tc)) (e.beginTake x f n true capture tc) := by
  unfold Engine.beginTake
  rw [hk]
  dsimp only
  refine .ask (.asksOnly ?_ (Engine.setCauses_asksOnly ..))
  exact .ask (.ask (.updTake (.queueBehind (.queueStart (.refl _))) (fun _ => rfl) fun _ => rfl))

/-- What a promotion makes of the take (R78, R81). -/
def promoted (mode : StartMode) (k : Take) : Take := { k with state := .armed, startMode := mode }

theorem promote_sameTakes (f : FeedId) (t : Take) (mode : StartMode) (e : Engine) :
    SameTakes ((e.updPlaces f fun p => { p with live := some t.id, staged := none }).updTake t.id (promoted mode))
      (e.promote f t mode) :=
  .ask (.ask (.ask (.refl _)))

/-- What a slotted frame makes of the take (R80). -/
def positioned (day : Nat) (cadence : Bool) (k : Take) : Take :=
  { k with position := k.position + 1, lastDay := some day, cadenceRecorded := cadence, firstFrame := true }

/-- A slotted frame changes its take alone, and the pool. -/
theorem slotted_sameTakes (x : Front) (f : FeedId) (t : Take) (a : Admission) (i : SlotId) (e : Engine) :
    SameTakes ({ e.updTake t.id (positioned a.placed.tc.day x.timers[f].cadenceOff) with
        slots := (e.slotted x f t a i).slots, held := (e.slotted x f t a i).held
        opened := (e.slotted x f t a i).opened })
      (e.slotted x f t a i) := by
  let opened : Engine := { e.grantSlot f t.id t.position i with
    opened := upd e.opened f fun _ => some (OpenFrame.fresh (x.settings f) i) }
  let queued := (opened.queueEvents t.id
    (t.frameRecords (x.settings f) x.timers[f].cadenceOff ((x.timers[f].measured).getD 0) a)).queueFrame t.id
      ⟨t.position, a.placed.tc, a.capture, a.placed.substituted, i, none⟩
  have hqueued : SameTakes opened queued := .queueFrame (.queueEvents (.refl _))
  have hasks : AsksOnly (queued.updTake t.id (positioned a.placed.tc.day x.timers[f].cadenceOff)) (e.slotted x f t a i) :=
    Engine.raiseContinuity_asksOnly ..
  have hlast := SameTakes.asksOnly (.refl _) hasks
  refine ⟨fun n => ?_, hlast.places.trans hqueued.places, rfl, rfl, rfl⟩
  have hcore : ∀ u : Engine, (u.updTake t.id (positioned a.placed.tc.day x.timers[f].cadenceOff)).core? n =
      if n = t.id then (u.core? n).map (positioned a.placed.tc.day x.timers[f].cadenceOff) else u.core? n :=
    fun u => core?_updTake (g := positioned a.placed.tc.day x.timers[f].cadenceOff) (fun _ => rfl) (fun _ => rfl) n
  rw [hlast.cores, hcore, hqueued.cores]
  exact (hcore e).symm

theorem slotted_core? (x : Front) (f : FeedId) (t : Take) (a : Admission) (i : SlotId) (e : Engine) (n : Nat) :
    (e.slotted x f t a i).core? n =
      if n = t.id then (e.core? n).map (positioned a.placed.tc.day x.timers[f].cadenceOff) else e.core? n := by
  rw [(slotted_sameTakes ..).cores]
  exact core?_updTake (e := e) (g := positioned a.placed.tc.day x.timers[f].cadenceOff) (fun _ => rfl) (fun _ => rfl) n

theorem slotted_places (x : Front) (f : FeedId) (t : Take) (a : Admission) (i : SlotId) (e : Engine) :
    (e.slotted x f t a i).places = e.places := (slotted_sameTakes ..).places

theorem Grows.queueFrame {t : Nat} {r : FrameRecord} {b e : Engine} (h : Grows b e) : Grows b (e.queueFrame t r) :=
  h.same rfl rfl

theorem Grows.raiseContinuity {x : Front} {f : FeedId} {c : Continuity} {b e : Engine} (h : Grows b e) :
    Grows b (e.raiseContinuity x f c) := by
  unfold Engine.raiseContinuity
  split
  · exact h
  · exact h.raise
  · exact h.raise

theorem Grows.slotted {x : Front} {f : FeedId} {t : Take} {a : Admission} {i : SlotId} {b e : Engine} (h : Grows b e) :
    Grows b (e.slotted x f t a i) := by
  have hopened : Grows b { e.grantSlot f t.id t.position i with
      opened := upd e.opened f fun _ => some (OpenFrame.fresh (x.settings f) i) } := h.same rfl rfl
  exact hopened.queueEvents.queueFrame.updTake.raiseContinuity

end Engine

end Sys2Proof.Machine
end


section
/-! What an admitted frame makes of a RECORDING take, its feed's places and the Staged take (R76 to R80, R86, R87). -/

namespace Sys2Proof.Machine

/-- A take context without its records and without what a slotted frame changes. -/
def Take.course (t : Take) : Take :=
  { t.core with position := 0, lastDay := none, cadenceRecorded := false, firstFrame := false }

/-- Position N − 1 of an AFTER_FRAMES take (R76). -/
def Take.AtLast (t : Take) : Prop := t.stopMode = .afterFrames ∧ t.position + 1 = t.frameLimit

namespace Engine

theorem mem_of_liveTake {e : Engine} {f : FeedId} {k : Take} (h : e.liveTake f = some k) :
    e.places[f].live = some k.id ∧ e.take? k.id = some k := by
  obtain ⟨m, hm, hk⟩ := Option.bind_eq_some_iff.mp h
  rw [id_of_take? hk]
  exact ⟨hm, hk⟩

theorem mem_of_stagedTake {e : Engine} {f : FeedId} {g : Take} (h : e.stagedTake f = some g) :
    e.places[f].staged = some g.id ∧ e.take? g.id = some g := by
  obtain ⟨m, hm, hg⟩ := Option.bind_eq_some_iff.mp h
  rw [id_of_take? hg]
  exact ⟨hm, hg⟩

/-! ## A frame belongs to a take -/

/-- In `u` the places are as in `e`, the takes too but for records and slotted frames, and no write has left the list. -/
structure SameCourse (e u : Engine) : Prop where
  courses : ∀ n, (u.take? n).map Take.course = (e.take? n).map Take.course
  places : u.places = e.places
  grows : Grows e u

theorem SameCourse.refl (e : Engine) : SameCourse e e := ⟨fun _ => rfl, rfl, .refl e⟩

/-- What neither records nor slotted frames change is as in `e`. -/
theorem SameCourse.map {α : Type} {e u : Engine} (h : SameCourse e u) {φ : Take → α} (hφ : ∀ t : Take, φ t.course = φ t)
    (n : Nat) : (u.take? n).map φ = (e.core? n).map φ := by
  have hcourse : φ ∘ Take.course = φ := funext hφ
  have hcore : φ ∘ Take.core = φ := funext fun t => by
    rw [Function.comp, ← hφ t.core, ← hφ t]
    rfl
  rw [core?, Option.map_map, hcore, ← hcourse, ← Option.map_map, h.courses, Option.map_map]

theorem slotted_sameCourse (x : Front) (f : FeedId) (t : Take) (a : Admission) (i : SlotId) (e : Engine) :
    SameCourse e (e.slotted x f t a i) := by
  have hcore : ∀ k : Take, (Take.course k.core) = k.course := fun _ => rfl
  refine ⟨fun n => ?_, slotted_places .., Grows.slotted (.refl e)⟩
  rw [← map_core? hcore, ← map_core? hcore, slotted_core?]
  split
  · rw [Option.map_map]
    rfl
  · rfl

/-- A frame that belongs to a take is an overrun or is slotted (R80). -/
theorem belong_cases {x : Front} {f : FeedId} {a : Admission} {e : Engine} {n : Nat} {t : Take} (ht : e.take? n = some t) :
    e.belong x f n a = (e, .overrun) ∨
      ∃ i, e.belong x f n a = ((e.slotted x f t a i).afterGrant f t a, .slotted) := by
  have hid := id_of_take? ht
  subst hid
  unfold Engine.belong Engine.slotFrame
  rw [ht]
  dsimp only
  by_cases hpos : positionLimit ≤ t.position
  · exact .inl (by rw [if_pos hpos])
  · rw [if_neg hpos]
    cases e.grantable x f with
    | none => exact .inl rfl
    | some i => exact .inr ⟨i, rfl⟩

theorem afterGrant_of_not_atLast {f : FeedId} {t : Take} {a : Admission} {e : Engine}
    (h : ¬t.AtLast ∨ e.places[f].deferredStop ≠ none) : e.afterGrant f t a = e :=
  if_neg fun ⟨hmode, hpos, hdef⟩ => h.elim (fun h => h ⟨hmode, hpos⟩) fun h => h hdef

/-- A frame that belongs to a take and is not its last one leaves the takes' course and the places (R80). -/
theorem belong_sameCourse {x : Front} {f : FeedId} {a : Admission} {e : Engine} {n : Nat} {t : Take}
    (ht : e.take? n = some t) (hlast : ¬t.AtLast ∨ e.places[f].deferredStop ≠ none) :
    (e.belong x f n a).2 ≠ .outside ∧ SameCourse e (e.belong x f n a).1 := by
  rcases belong_cases (x := x) (f := f) (a := a) ht with h | ⟨i, h⟩
  · rw [h]
    exact ⟨nofun, .refl e⟩
  · rw [h, afterGrant_of_not_atLast (by rwa [slotted_places])]
    exact ⟨nofun, slotted_sameCourse ..⟩

/-! ## The Staged take once Live is gone -/

/-- The Staged take's number and start mode. -/
def stagedMode (e : Engine) (f : FeedId) : Option (Nat × StartMode) := (e.stagedTake f).map fun g => (g.id, g.startMode)

theorem stagedMode_congr {e u : Engine} {f : FeedId} (hp : u.places[f].staged = e.places[f].staged)
    (hc : ∀ m, e.places[f].staged = some m → u.core? m = e.core? m) : u.stagedMode f = e.stagedMode f := by
  have hmap : ∀ (v : Engine) m, (v.take? m).map (fun g => (g.id, g.startMode)) =
      (v.core? m).map fun g => (g.id, g.startMode) := fun v m => (map_core? fun _ => rfl).symm
  unfold stagedMode stagedTake
  rw [hp]
  cases hm : e.places[f].staged with
  | none => rfl
  | some m => rw [Option.bind_some, Option.bind_some, hmap, hmap, hc m hm]

theorem promote_places (f : FeedId) (t : Take) (mode : StartMode) (e : Engine) :
    (e.promote f t mode).places[f] = { e.places[f] with live := some t.id, staged := none } := by
  rw [(promote_sameTakes ..).places]
  exact upd_same ..

theorem promote_core? (f : FeedId) (t : Take) (mode : StartMode) (e : Engine) (n : Nat) :
    (e.promote f t mode).core? n = if n = t.id then (e.core? n).map (promoted mode) else e.core? n := by
  rw [(promote_sameTakes ..).cores]
  exact core?_updTake (g := promoted mode) (fun _ => rfl) (fun _ => rfl) n

/-- The reasons for which a RECORDING take's own stop closes it on a frame (R76). -/
def OwnStop (why : CloseReason) : Prop := why = .stopTime ∨ why = .stopTimecode ∨ why = .frameCount

/-- After a close by Live's own stop a Staged take is promoted (R78). -/
theorem promoteAfterClose_cases {e : Engine} {f : FeedId} {why : CloseReason} (h : OwnStop why) :
    e.stagedTake f = none ∧ e.promoteAfterClose f why = e ∨
      ∃ g, e.stagedTake f = some g ∧ e.promoteAfterClose f why = e.promote f g g.startMode.asLive := by
  unfold Engine.promoteAfterClose
  cases e.stagedTake f with
  | none => exact .inl ⟨rfl, rfl⟩
  | some g => exact .inr ⟨g, rfl, by rcases h with rfl | rfl | rfl <;> rfl⟩

/-! ## Outcomes of an admitted frame -/

section Outcomes

variable (f : FeedId) (k : Take) (p : Places)

/-- Take `k`, Live in the places `p`, has closed for `why`. -/
def Closes (capture : Count) (why : CloseReason) (t : Engine) : Prop :=
  t.places[f].closing = p.closing ++ [k.id] ∧ t.places[f].deferredStop = none ∧
    .sheetState k.id k.sheet .closing ∈ t.port.writes ∧
    (t.take? k.id).map (fun k => (k.state, k.reason, k.endCapture)) = some (.closing, some why, some capture)

/-- The frame belongs to `k`, which goes on in the places `p`. -/
def GoesOn (r : Engine × Verdict) : Prop :=
  r.2 ≠ .outside ∧ r.1.places[f].live = p.live ∧ r.1.places[f].staged = p.staged ∧
    r.1.places[f].closing = p.closing ∧ (r.1.take? k.id).map (·.state) = some .recording

/-- The frame belongs to `k`, whose stop for `why` is deferred. -/
def Defers (why : CloseReason) (r : Engine × Verdict) : Prop :=
  GoesOn f k p r ∧ r.1.places[f].deferredStop = some why ∧
    (r.1.take? k.id).map (·.deferredStops) = some (k.deferredStops + 1)

/-- The take `g` begins on the frame, which belongs to it. -/
def Begins (a : Admission) (g : Take) (r : Engine × Verdict) : Prop :=
  r.2 ≠ .outside ∧ r.1.places[f].live = some g.id ∧ r.1.places[f].staged = none ∧
    (r.1.take? g.id).map (fun g => (g.state, g.startCapture, g.beginFrame)) =
      some (.recording, some a.capture, some (a.capture, a.placed.tc))

/-- The Staged take of the places `p`, if it is there, is Live ARMED. -/
def Promotes (staged : Option (Nat × StartMode)) (t : Engine) : Prop :=
  p.staged.isSome = staged.isSome → t.places[f].live = p.staged ∧ t.places[f].staged = none ∧
    ∀ n mode, staged = some (n, mode) →
      (t.take? n).map (fun g => (g.state, g.startMode)) = some (.armed, mode.asLive)

end Outcomes

variable {x : Front} {f : FeedId} {a : Admission} {e : Engine} {k g : Take} {why : CloseReason}

/-- A deferral leaves Live RECORDING in its place (R87). -/
theorem deferStop_defers {c : Take} {v : Verdict} (hc : e.core? k.id = some c) (hrec : c.state = .recording)
    (hstops : c.deferredStops = k.deferredStops) (hv : v ≠ .outside) :
    Defers f k e.places[f] why (e.deferStop f k why, v) := by
  have hplaces := deferStop_places f k why e
  have hcore : (e.deferStop f k why).core? k.id = some { c with deferredStops := c.deferredStops + 1 } := by
    rw [deferStop_core?, if_pos rfl, hc, Option.map_some]
  refine ⟨⟨hv, ?_, ?_, ?_, ?_⟩, ?_, ?_⟩
  · rw [hplaces]
  · rw [hplaces]
  · rw [hplaces]
  · rw [← map_core? fun _ => rfl, hcore]
    exact congrArg some hrec
  · rw [hplaces]
  · rw [← map_core? fun _ => rfl, hcore]
    exact congrArg (fun n => some (n + 1)) hstops

/-- A frame that belongs to Live once its stop is deferred leaves it deferred. -/
theorem Defers.ofCourse {u : Engine} {v w : Verdict} {p : Places} (h : Defers f k p why (e, v)) (hu : SameCourse e u)
    (hw : w ≠ .outside) : Defers f k p why (u, w) := by
  obtain ⟨⟨-, hlive, hstaged, hclosing, hstate⟩, hdef, hstops⟩ := h
  have htake : ∀ {α : Type} {φ : Take → α}, (∀ t : Take, φ t.course = φ t) →
      (u.take? k.id).map φ = (e.take? k.id).map φ := fun {_ φ} hφ =>
    (hu.map hφ _).trans (map_core? fun t => (hφ t.core).symm.trans (hφ t))
  unfold Defers GoesOn
  rw [hu.places]
  exact ⟨⟨hw, hlive, hstaged, hclosing, (htake fun _ => rfl).trans hstate⟩, hdef, (htake fun _ => rfl).trans hstops⟩

/-- A stop is deferred and the frame belongs to the take (R76, R77, R87). -/
theorem deferStop_belong_defers (hk : e.take? k.id = some k) (hrec : k.state = .recording) :
    Defers f k e.places[f] why ((e.deferStop f k why).belong x f k.id a) := by
  have hdefers : Defers f k e.places[f] why (e.deferStop f k why, .slotted) :=
    deferStop_defers (core?_of_take? hk) hrec rfl nofun
  obtain ⟨k', hk', -⟩ := take?_of_core? (n := k.id) (e := e.deferStop f k why)
    (by rw [deferStop_core?, if_pos rfl, core?_of_take? hk, Option.map_some])
  obtain ⟨hverdict, hcourse⟩ := belong_sameCourse (x := x) (f := f) (a := a) hk'
    (.inr (by rw [deferStop_places]; nofun))
  exact hdefers.ofCourse hcourse hverdict

/-- The take `g`, Live and ARMED, begins on the frame, and the frame belongs to it (R75, R79). -/
theorem beginOn_begins (hg : (e.take? g.id).map Take.core = some g.core) (hlast : ¬g.AtLast)
    (hlive : e.places[f].live = some g.id) (hstaged : e.places[f].staged = none) :
    let r := e.beginOn x f g.id a
    Begins f a g r ∧ r.1.places = e.places ∧ Grows e r.1 ∧
      ∀ {α : Type} (φ : Take → α), (∀ t : Take, φ t.course = φ t) → ∀ n, n ≠ g.id →
        (r.1.take? n).map φ = (e.core? n).map φ := by
  intro r
  obtain ⟨g', hg', hgcore⟩ := take?_of_core? hg
  have hbegin := beginTake_sameTakes (x := x) (f := f) (capture := a.capture) (tc := a.placed.tc) hg'
  have hcores : ∀ n, (e.beginTake x f g.id true a.capture a.placed.tc).core? n =
      if n = g.id then (e.core? n).map (begun (x.settings f).geometry a.capture a.placed.tc) else e.core? n := by
    intro n
    rw [hbegin.cores]
    exact core?_updTake (g := begun (x.settings f).geometry a.capture a.placed.tc) (fun _ => rfl) (fun _ => rfl) n
  obtain ⟨b, hb, hbcore⟩ := take?_of_core? (n := g.id) (e := e.beginTake x f g.id true a.capture a.placed.tc)
    (c := begun (x.settings f).geometry a.capture a.placed.tc g.core)
    (by rw [hcores, if_pos rfl, core?_of_take? hg', hgcore, Option.map_some])
  have hblast : ¬b.AtLast := by
    change ¬b.core.AtLast
    rw [hbcore]
    exact hlast
  obtain ⟨hverdict, hcourse⟩ := belong_sameCourse (x := x) (f := f) (a := a) hb (.inl hblast)
  have hplaces : r.1.places = e.places := hcourse.places.trans hbegin.places
  refine ⟨⟨hverdict, ?_, ?_, ?_⟩, hplaces, .trans (.beginTake (.refl e)) hcourse.grows, fun φ hφ n hn => ?_⟩
  · rw [hplaces, hlive]
  · rw [hplaces, hstaged]
  · exact (hcourse.map (fun _ => rfl) _).trans (by rw [hcores, if_pos rfl, core?_of_take? hg']; rfl)
  · exact (hcourse.map hφ n).trans (by rw [hcores, if_neg hn])

theorem stagedToLive_places (f : FeedId) (g : Take) (e : Engine) :
    (e.stagedToLive f g).places[f] = { e.places[f] with live := some g.id, staged := none } := upd_same ..

/-- The reason and the end capture of take `k` once it has closed. -/
theorem closeLive_end (hk : (e.core? k.id).isSome) (capture : Count) :
    ((e.closeLive f k why capture).core? k.id).map (fun k => (k.state, k.reason, k.endCapture)) =
      some (.closing, some why, some capture) := by
  obtain ⟨c, hc⟩ := Option.isSome_iff_exists.mp hk
  rw [closeLive_core?, if_pos rfl, hc]
  rfl

/-- Live closes, the Staged take `g` takes its place and begins on the frame (R77, R78). -/
theorem closeLive_closes_begins (hk : (e.core? k.id).isSome) (hg : e.take? g.id = some g) (hne : g.id ≠ k.id)
    (hdef : e.places[f].deferredStop = none) (hlast : ¬g.AtLast) :
    let r := ((e.closeLive f k why a.capture).stagedToLive f g).beginOn x f g.id a
    Closes f k e.places[f] a.capture why r.1 ∧ Begins f a g r := by
  intro r
  have hplaces := closeLive_places f k why a.capture e
  have hend := closeLive_end (f := f) (why := why) hk a.capture
  have hwrites := closeLive_writes f k why a.capture e
  have hgcore : (e.closeLive f k why a.capture).core? g.id = some g.core := by
    rw [closeLive_core?, if_neg hne, core?_of_take? hg]
  have hr : r = ((e.closeLive f k why a.capture).stagedToLive f g).beginOn x f g.id a := rfl
  clear_value r
  generalize e.closeLive f k why a.capture = u at *
  have hlive := stagedToLive_places f g u
  obtain ⟨hbegins, hrplaces, hgrows, hothers⟩ := beginOn_begins (x := x) (a := a) (e := u.stagedToLive f g) hgcore hlast
    (by rw [hlive]) (by rw [hlive])
  rw [hr]
  refine ⟨⟨?_, ?_, hgrows.mem hwrites, (hothers _ (fun _ => rfl) _ hne.symm).trans hend⟩, hbegins⟩
  · rw [hrplaces, hlive, hplaces]
  · rw [hrplaces, hlive, hplaces, hdef]

/-- A close by Live's own stop: the Staged take that is there is promoted (R78), and the rest is as after the close. -/
theorem promoteAfterClose_promotes (hwhy : OwnStop why) (hlive : e.places[f].live = none) :
    let t := e.promoteAfterClose f why
    Promotes f { e.places[f] with live := none } (e.stagedMode f) t ∧ t.places[f].closing = e.places[f].closing ∧
      t.places[f].deferredStop = e.places[f].deferredStop ∧ Grows e t ∧
      (∀ n, e.places[f].staged ≠ some n → t.core? n = e.core? n) ∧
      t.slots = e.slots ∧ t.held = e.held ∧ t.opened = e.opened := by
  intro t
  rcases promoteAfterClose_cases (e := e) (f := f) hwhy with ⟨hnone, ht⟩ | ⟨g, hg, ht⟩
  · have hmode : e.stagedMode f = none := by rw [stagedMode, hnone]; rfl
    rw [show t = e from ht, hmode]
    refine ⟨fun hp => ?_, rfl, rfl, .refl e, fun _ _ => rfl, rfl, rfl, rfl⟩
    have hp : e.places[f].staged = none := Option.not_isSome_iff_eq_none.mp (by rw [hp]; nofun)
    exact ⟨hlive.trans hp.symm, hp, nofun⟩
  · obtain ⟨hstaged, hgt⟩ := mem_of_stagedTake hg
    have hsame := promote_sameTakes f g g.startMode.asLive e
    have hplaces := promote_places f g g.startMode.asLive e
    have hmode : e.stagedMode f = some (g.id, g.startMode) := by rw [stagedMode, hg]; rfl
    rw [show t = e.promote f g g.startMode.asLive from ht, hmode]
    refine ⟨fun _ => ⟨?_, ?_, ?_⟩, ?_, ?_, .promote (.refl e), fun n hn => ?_, hsame.slots, hsame.held, hsame.opened⟩
    · rw [hplaces, hstaged]
    · rw [hplaces]
    · rintro n mode hn
      obtain ⟨rfl, rfl⟩ := Prod.mk.inj (Option.some.inj hn)
      rw [← map_core? fun _ => rfl, promote_core?, if_pos rfl, core?_of_take? hgt]
      rfl
    · rw [hplaces]
    · rw [hplaces]
    · rw [promote_core?, if_neg fun h : n = g.id => hn (h ▸ hstaged)]

/-- Live closes by its own stop, and a Staged take is promoted (R78, R86). -/
theorem closeLive_closes_promotes (hk : (e.core? k.id).isSome) (hstaged : e.places[f].staged ≠ some k.id)
    (hdef : e.places[f].deferredStop = none) (hwhy : OwnStop why) :
    let t := (e.closeLive f k why a.capture).promoteAfterClose f why
    Closes f k e.places[f] a.capture why t ∧ Promotes f e.places[f] (e.stagedMode f) t ∧
      t.slots = e.slots ∧ t.held = e.held ∧ t.opened = e.opened := by
  intro t
  have hplaces := closeLive_places f k why a.capture e
  have hend := closeLive_end (f := f) (why := why) hk a.capture
  have hwrites := closeLive_writes f k why a.capture e
  have hsame := closeLive_sameTakes f k why a.capture e
  have hmode : (e.closeLive f k why a.capture).stagedMode f = e.stagedMode f :=
    stagedMode_congr (by rw [hplaces]) fun m hm => by
      rw [closeLive_core?, if_neg fun h : m = k.id => hstaged (h ▸ hm)]
  have hpool := And.intro hsame.slots (And.intro hsame.held hsame.opened)
  have ht : t = (e.closeLive f k why a.capture).promoteAfterClose f why := rfl
  clear_value t
  generalize e.closeLive f k why a.capture = u at *
  obtain ⟨hpromotes, hclosing, hdeferred, hgrows, hcores, hslots, hheld, hopened⟩ :=
    promoteAfterClose_promotes (e := u) (f := f) hwhy (by rw [hplaces])
  rw [← ht] at hpromotes hclosing hdeferred hgrows hcores hslots hheld hopened
  rw [hplaces] at hpromotes hclosing hdeferred hcores
  rw [hmode] at hpromotes
  refine ⟨⟨hclosing, hdeferred.trans hdef, hgrows.mem hwrites, ?_⟩, hpromotes,
    hslots.trans hpool.1, hheld.trans hpool.2.1, hopened.trans hpool.2.2⟩
  rw [← map_core? fun _ => rfl, hcores k.id hstaged, hend]

end Engine

end Sys2Proof.Machine
end


section
/-! The membership of an admitted frame while Live is RECORDING, by the stop tests and the Staged take's start (R76 to R80,
R87). -/

namespace Sys2Proof.Machine

namespace Engine

/-! ## The tests -/

/-- A time parameter holds on the frame (R26). -/
def TimeHolds (a : Admission) (param : BitVec 64) : Prop := (a.capture - param.setWidth 48).toNat < 2 ^ 47

/-- A timecode parameter holds on the frame (R49). -/
def TimecodeHolds (x : Front) (f : FeedId) (a : Admission) (param : BitVec 64) : Prop :=
  (x.settings f).rate.atOrAfter ((param.setWidth 32).toNat % (x.settings f).rate.dayCount) a.placed.tc.day = true

/-- Take `k`'s own time or timecode stop holds on the frame, for the reason `why` (R76). -/
def Stops (x : Front) (f : FeedId) (a : Admission) (k : Take) (why : CloseReason) : Prop :=
  k.stopMode = .atTime ∧ TimeHolds a k.stopParam ∧ why = .stopTime ∨
    k.stopMode = .atTimecode ∧ TimecodeHolds x f a k.stopParam ∧ why = .stopTimecode

/-- Take `g`'s start condition holds on the frame (R75, R77). -/
def Starts (x : Front) (f : FeedId) (a : Admission) (g : Take) : Prop :=
  g.startMode = .immediate ∨ g.startMode = .atTime ∧ TimeHolds a g.startParam ∨
    g.startMode = .atTimecode ∧ TimecodeHolds x f a g.startParam

variable {x : Front} {f : FeedId} {a : Admission} {e : Engine} {k g : Take} {why : CloseReason}

theorem timeHolds_iff (a : Admission) (param : BitVec 64) :
    Count.atOrAfter (param.setWidth 48) a.capture = true ↔ TimeHolds a param := by
  unfold Count.atOrAfter TimeHolds
  exact decide_eq_true_iff

theorem timecodeHolds_iff (x : Front) (f : FeedId) (a : Admission) (param : BitVec 64) :
    (x.settings f).rate.timecodeHolds param a.placed.tc.day = true ↔ TimecodeHolds x f a param := Iff.rfl

/-- Below the position limit Live's own stop is its time or timecode stop. -/
theorem ownStop_eq_some_iff (hpos : k.position < 2 ^ 32 - 1) : ownStop x f k a = some why ↔ Stops x f a k why := by
  have hlimit : ¬positionLimit ≤ k.position := by unfold positionLimit; omega
  unfold ownStop Stops
  rw [← timeHolds_iff, ← timecodeHolds_iff, if_neg hlimit]
  split
  next h =>
    refine ⟨fun hw => .inl ⟨h.1, h.2, (Option.some.inj hw).symm⟩, ?_⟩
    rintro (⟨-, -, rfl⟩ | ⟨hm, -⟩)
    · rfl
    · exact absurd (h.1.symm.trans hm) nofun
  next h =>
    split
    next ht =>
      refine ⟨fun hw => .inr ⟨ht.1, ht.2, (Option.some.inj hw).symm⟩, ?_⟩
      rintro (⟨hm, -⟩ | ⟨-, -, rfl⟩)
      · exact absurd (ht.1.symm.trans hm) nofun
      · rfl
    next ht =>
      simp only [reduceCtorEq, false_iff]
      rintro (⟨hm, hp, -⟩ | ⟨hm, hp, -⟩)
      · exact h ⟨hm, hp⟩
      · exact ht ⟨hm, hp⟩

theorem ownStop_eq_none_iff (hpos : k.position < 2 ^ 32 - 1) : ownStop x f k a = none ↔ ∀ why, ¬Stops x f a k why := by
  rw [Option.eq_none_iff_forall_ne_some]
  exact forall_congr' fun why => not_congr (ownStop_eq_some_iff hpos)

theorem startHolds_iff : startHolds x f g.startMode g.startParam a = true ↔ Starts x f a g := by
  unfold startHolds Starts
  cases g.startMode with
  | immediate => simp
  | atTime => simpa using timeHolds_iff a g.startParam
  | atTimecode => simpa using timecodeHolds_iff x f a g.startParam
  | contiguous => simp

theorem Stops.ownStop (h : Stops x f a k why) : OwnStop why := by
  rcases h with ⟨-, -, rfl⟩ | ⟨-, -, rfl⟩
  · exact .inl rfl
  · exact .inr (.inl rfl)

theorem Stops.ne_frameCount (h : Stops x f a k why) : why ≠ .frameCount := by
  rcases h with ⟨-, -, rfl⟩ | ⟨-, -, rfl⟩ <;> nofun

theorem closingFull_iff : e.closingFull f = true ↔ 4 ≤ e.places[f].closing.length := decide_eq_true_iff

/-! ## Which way the frame goes -/

/-- The Staged take's start holds: it begins on the frame (R77). -/
theorem admitRecording_of_start (hdef : e.places[f].deferredStop = none) (hg : e.stagedTake f = some g)
    (hstart : Starts x f a g) :
    e.admitRecording x f k a = e.splitOn x f k g ((ownStop x f k a).getD .split) a := by
  unfold Engine.admitRecording
  rw [hdef, hg, Option.filter_some, if_pos (startHolds_iff.mpr hstart)]
  rfl

/-- No Staged take's start holds: Live's own stop decides (R76). -/
theorem admitRecording_of_no_start (hdef : e.places[f].deferredStop = none)
    (hstart : ∀ g, e.stagedTake f = some g → ¬Starts x f a g) :
    e.admitRecording x f k a =
      (ownStop x f k a).elim (e.belong x f k.id a) fun why => e.stopOn x f k why a := by
  have hfilter : (e.stagedTake f).filter (fun g => startHolds x f g.startMode g.startParam a) = none := by
    rw [Option.filter_eq_none_iff]
    exact fun g hg hs => hstart g hg (startHolds_iff.mp hs)
  unfold Engine.admitRecording
  dsimp only
  rw [hdef, hfilter]
  cases Machine.ownStop x f k a with
  | none => rfl
  | some why => rfl

/-- A Staged CONTIGUOUS take begins on the frame a time stop excludes (R78). -/
theorem stopOn_of_contiguous (hg : e.stagedTake f = some g) (hmode : g.startMode = .contiguous)
    (hwhy : why ≠ .frameCount) : e.stopOn x f k why a = e.splitOn x f k g why a := by
  unfold Engine.stopOn Engine.splitOn
  split
  · rfl
  · dsimp only
    rw [hg]
    exact if_pos ⟨hmode, hwhy⟩

/-- Any other Staged take is promoted, and the frame is outside (R78). -/
theorem stopOn_of_not_contiguous (hfull : e.closingFull f = false) (hself : e.places[f].staged ≠ some k.id)
    (hmode : ∀ g, e.stagedTake f = some g → g.startMode ≠ .contiguous) :
    e.stopOn x f k why a = ((e.closeLive f k why a.capture).promoteAfterClose f why, .outside) := by
  unfold Engine.stopOn
  rw [if_neg (by rw [hfull]; nofun)]
  dsimp only
  cases hg : e.stagedTake f with
  | some g => exact if_neg fun h => hmode g hg h.1
  | none =>
    have hplaces := closeLive_places f k why a.capture e
    have hclosed : (e.closeLive f k why a.capture).stagedMode f = none := by
      rw [stagedMode_congr (e := e) (by rw [hplaces]) fun m hm => by
        rw [closeLive_core?, if_neg fun h : m = k.id => hself (h ▸ hm)], stagedMode, hg]
      rfl
    unfold Engine.promoteAfterClose
    rw [Option.map_eq_none_iff.mp hclosed]

/-! ## What comes of it -/

/-- A take begins on the frame in Live's place, or Live's stop is deferred (R77, R87). -/
theorem splitOn_outcome (hk : e.take? k.id = some k) (hrec : k.state = .recording) (hg : e.stagedTake f = some g)
    (hne : g.id ≠ k.id) (hdef : e.places[f].deferredStop = none) (hlast : ¬g.AtLast) :
    (e.closingFull f = true → Defers f k e.places[f] why (e.splitOn x f k g why a)) ∧
      (e.closingFull f = false → Closes f k e.places[f] a.capture why (e.splitOn x f k g why a).1 ∧
        Begins f a g (e.splitOn x f k g why a)) := by
  unfold Engine.splitOn
  refine ⟨fun hfull => ?_, fun hfull => ?_⟩
  · rw [if_pos hfull]
    exact deferStop_belong_defers hk hrec
  · rw [if_neg (by rw [hfull]; nofun)]
    exact closeLive_closes_begins (by rw [core?_of_take? hk]; rfl) (mem_of_stagedTake hg).2 hne hdef hlast

/-- Live's own stop excludes the frame, or is deferred (R76, R87). -/
theorem stopOn_outcome (hk : e.take? k.id = some k) (hrec : k.state = .recording)
    (hself : e.places[f].staged ≠ some k.id) (hmode : ∀ g, e.stagedTake f = some g → g.startMode ≠ .contiguous)
    (hdef : e.places[f].deferredStop = none) (hwhy : OwnStop why) :
    (e.closingFull f = true → Defers f k e.places[f] why (e.stopOn x f k why a)) ∧
      (e.closingFull f = false →
        let r := e.stopOn x f k why a
        r.2 = .outside ∧ Closes f k e.places[f] a.capture why r.1 ∧ Promotes f e.places[f] (e.stagedMode f) r.1 ∧
          r.1.slots = e.slots ∧ r.1.held = e.held ∧ r.1.opened = e.opened) := by
  refine ⟨fun hfull => ?_, fun hfull => ?_⟩
  · unfold Engine.stopOn
    rw [if_pos hfull]
    exact deferStop_belong_defers hk hrec
  · rw [stopOn_of_not_contiguous hfull hself hmode]
    dsimp only
    exact ⟨rfl, closeLive_closes_promotes (by rw [core?_of_take? hk]; rfl) hself hdef hwhy⟩

/-- The course of a slotted frame's engine without the last frame's close: Live goes on (R80). -/
theorem SameCourse.goesOn {u : Engine} {v : Verdict} (h : SameCourse e u) (hk : e.take? k.id = some k)
    (hrec : k.state = .recording) (hv : v ≠ .outside) : GoesOn f k e.places[f] (u, v) := by
  refine ⟨hv, ?_, ?_, ?_, ?_⟩
  · rw [h.places]
  · rw [h.places]
  · rw [h.places]
  · rw [h.map fun _ => rfl, core?_of_take? hk]
    exact congrArg some hrec

theorem afterGrant_of_atLast (hlast : k.AtLast) (hdef : e.places[f].deferredStop = none) :
    e.afterGrant f k a = if e.closingFull f then e.deferStop f k .frameCount
      else (e.closeLive f k .frameCount a.capture).promoteAfterClose f .frameCount :=
  if_pos ⟨hlast.1, hlast.2, hdef⟩

/-- The last position of an AFTER_FRAMES take is granted: it closes right after the frame, or its stop is deferred (R76,
R87). -/
theorem slotted_atLast_outcome {i : SlotId} (hk : e.take? k.id = some k) (hrec : k.state = .recording)
    (hself : e.places[f].staged ≠ some k.id) (hdef : e.places[f].deferredStop = none) (hlast : k.AtLast) :
    let r := ((e.slotted x f k a i).afterGrant f k a, Verdict.slotted)
    (e.closingFull f = true → Defers f k e.places[f] .frameCount r) ∧
      (e.closingFull f = false → Closes f k e.places[f] a.capture .frameCount r.1 ∧
        Promotes f e.places[f] (e.stagedMode f) r.1) := by
  have hcores := slotted_core? x f k a i e
  have hplaces := slotted_places x f k a i e
  generalize e.slotted x f k a i = u at *
  have hplaces : u.places[f] = e.places[f] := by rw [hplaces]
  have hk' : u.core? k.id = some (positioned a.placed.tc.day x.timers[f].cadenceOff k.core) := by
    rw [hcores, if_pos rfl, core?_of_take? hk, Option.map_some]
  have hfull : e.closingFull f = u.closingFull f := by unfold Engine.closingFull; rw [hplaces]
  have hmode : e.stagedMode f = u.stagedMode f := (stagedMode_congr (by rw [hplaces]) fun m hm => by
    rw [hcores, if_neg fun h : m = k.id => hself (h ▸ hm)]).symm
  rw [← hplaces] at hself hdef
  rw [afterGrant_of_atLast hlast hdef, hfull, ← hplaces, hmode]
  refine ⟨fun hc => ?_, fun hc => ?_⟩
  · rw [if_pos hc]
    exact deferStop_defers hk' hrec rfl nofun
  · rw [if_neg (by rw [hc]; nofun)]
    obtain ⟨hcloses, hpromotes, -⟩ := closeLive_closes_promotes (a := a) (by rw [hk']; rfl) hself hdef
      (.inr (.inr rfl) : OwnStop .frameCount)
    dsimp only
    exact ⟨hcloses, hpromotes⟩

/-- A frame that belongs to Live: an overrun, or a slotted frame, with which an AFTER_FRAMES take's last position closes it
or defers its stop (R76, R80, R87). -/
theorem belong_outcome (hk : e.take? k.id = some k) (hrec : k.state = .recording)
    (hself : e.places[f].staged ≠ some k.id) (hdef : e.places[f].deferredStop = none) :
    let r := e.belong x f k.id a
    (k.AtLast → r.2 = .slotted → (e.closingFull f = true → Defers f k e.places[f] .frameCount r) ∧
        (e.closingFull f = false → Closes f k e.places[f] a.capture .frameCount r.1 ∧
          Promotes f e.places[f] (e.stagedMode f) r.1)) ∧
      (¬k.AtLast ∨ r.2 = .overrun → GoesOn f k e.places[f] r ∧ r.1.places[f].deferredStop = none) ∧
      r.2 ≠ .outside := by
  intro r
  have hr : r = e.belong x f k.id a := rfl
  clear_value r
  rcases belong_cases (x := x) (f := f) (a := a) hk with h | ⟨i, h⟩
  · rw [hr, h]
    exact ⟨nofun, fun _ => ⟨(SameCourse.refl e).goesOn hk hrec nofun, hdef⟩, nofun⟩
  · rw [hr, h]
    refine ⟨fun hlast _ => slotted_atLast_outcome hk hrec hself hdef hlast, fun hlast => ?_, nofun⟩
    rw [afterGrant_of_not_atLast (.inl (hlast.resolve_right nofun))]
    exact ⟨(slotted_sameCourse ..).goesOn hk hrec nofun, by rw [slotted_places, hdef]⟩

/-- An admitted frame of a feed whose Live take is RECORDING, once the rereads are asked (R71). -/
theorem takeFrame_of_recording (h : e.liveTake f = some k) (hrec : k.state = .recording) :
    ∃ u : Engine, e.SameWork u ∧ u.opened = e.opened ∧ e.takeFrame x f a = u.admitRecording x f k a := by
  obtain ⟨u, hu, hwork, hopened⟩ : ∃ u, (e.standingTakes f).foldl (fun e t => e.askReread false t) e = u ∧
      e.SameWork u ∧ u.opened = e.opened :=
    ⟨_, Engine.askRereads_eq e false _, ⟨rfl, rfl, rfl, rfl, rfl, rfl, rfl, rfl⟩, rfl⟩
  refine ⟨u, hwork, hopened, ?_⟩
  unfold Engine.takeFrame
  dsimp only
  rw [hu, hwork.liveTake, h]
  exact if_neg (by rw [hrec]; nofun)

end Engine

/-- Settles O24: the stop tests and the Staged take's start say which way the frame goes, and each way's outcome follows
from what a close, a deferral, a begin, a promotion and a slotted frame make of takes and places. -/
theorem recordingTakeMembership : Obligations.RecordingTakeMembership := by
  unfold Obligations.RecordingTakeMembership
  intro x f a k e hlive hrec hdef hpos hother n time timecode stops starts full last t verdict closes goesOn defers begun
    promoted
  obtain ⟨u, hwork, hopened, htake⟩ := Engine.takeFrame_of_recording (x := x) (a := a) hlive hrec
  have hplaces : u.places[f] = e.places[f] := by rw [hwork.places]
  have hstaged : u.stagedTake f = e.stagedTake f := by
    unfold Engine.stagedTake Engine.take?
    rw [hwork.places, hwork.takes]
  have hk : u.take? k.id = some k := (Engine.mem_of_liveTake ((hwork.liveTake f).trans hlive)).2
  have hself : u.places[f].staged ≠ some k.id := by
    intro h
    refine hother k ?_ rfl
    rw [← hstaged, Engine.stagedTake, h]
    exact hk
  have hudef : u.places[f].deferredStop = none := by rw [hplaces, hdef]
  have hfull : u.closingFull f = true ↔ full := by rw [Engine.closingFull_iff, hplaces]
  have hnotfull : u.closingFull f = false ↔ ¬full := by rw [← hfull, Bool.not_eq_true]
  have hown : ∀ {why}, ownStop x f k a = some why ↔ stops why := Engine.ownStop_eq_some_iff hpos
  have hpromoted : Engine.Promotes f e.places[f] (u.stagedMode f) t →
      e.places[f].staged.isSome = (e.stagedTake f).isSome → promoted := by
    intro h hp
    obtain ⟨hl, hs, hm⟩ := h (by rw [hp, Engine.stagedMode, hstaged, Option.isSome_map])
    refine ⟨hl, hs, fun g hg => (hm g.id g.startMode (by rw [Engine.stagedMode, hstaged, hg]; rfl)).trans ?_⟩
    cases g.startMode <;> rfl
  refine ⟨fun g why hway hlast => ?_, fun why hstop hno => ?_, fun hnostop hno => ?_⟩
  · have hg : u.stagedTake f = some g := hstaged.trans (hway.elim (fun h => h.1.1) fun h => h.1)
    have hadmit : e.takeFrame x f a = u.splitOn x f k g why a := by
      rw [htake]
      rcases hway with ⟨⟨-, hstart⟩, hwhy⟩ | ⟨-, hmode, hstop⟩
      · rw [Engine.admitRecording_of_start hudef hg hstart]
        rcases hwhy with hstop | ⟨hnostop, rfl⟩
        · rw [hown.mpr hstop]
          rfl
        · rw [(Engine.ownStop_eq_none_iff hpos).mpr hnostop]
          rfl
      · rw [Engine.admitRecording_of_no_start hudef fun g' hg' hs => ?_, hown.mpr hstop]
        · exact Engine.stopOn_of_contiguous hg hmode (Engine.Stops.ne_frameCount hstop)
        · obtain rfl : g = g' := Option.some.inj (hg.symm.trans hg')
          rcases hs with h | ⟨h, -⟩ | ⟨h, -⟩ <;> exact absurd (hmode.symm.trans h) nofun
    obtain ⟨hdefers, hcloses⟩ := Engine.splitOn_outcome (x := x) (a := a) (why := why) hk hrec hg
      (hother g (hstaged ▸ hg)) hudef fun h => hlast h.1 h.2
    rw [← hadmit, hplaces] at hdefers hcloses
    exact ⟨fun h => hdefers (hfull.mpr h), fun h => hcloses (hnotfull.mpr h)⟩
  · have hadmit : e.takeFrame x f a = u.stopOn x f k why a := by
      rw [htake, Engine.admitRecording_of_no_start hudef fun g hg hs => (hno g (hstaged ▸ hg)).2 ⟨hstaged ▸ hg, hs⟩,
        hown.mpr hstop]
      rfl
    obtain ⟨hdefers, hcloses⟩ := Engine.stopOn_outcome (x := x) (a := a) hk hrec hself
      (fun g hg => (hno g (hstaged ▸ hg)).1) hudef (Engine.Stops.ownStop hstop)
    rw [← hadmit, hplaces] at hdefers hcloses
    refine ⟨fun h => hdefers (hfull.mpr h), fun h => ?_⟩
    obtain ⟨hverdict, hclosed, hprom, hslots, hheld, hopen⟩ := hcloses (hnotfull.mpr h)
    exact ⟨hpromoted hprom, hclosed, hverdict, hslots.trans hwork.slots, hheld.trans hwork.held, hopen.trans hopened⟩
  · have hadmit : e.takeFrame x f a = u.belong x f k.id a := by
      rw [htake, Engine.admitRecording_of_no_start hudef fun g hg hs => hno g ⟨hstaged ▸ hg, hs⟩,
        (Engine.ownStop_eq_none_iff hpos).mpr hnostop]
      rfl
    obtain ⟨hlastly, hgoes, hverdict⟩ := Engine.belong_outcome (x := x) (a := a) hk hrec hself hudef
    rw [← hadmit, hplaces] at hlastly hgoes
    rw [← hadmit] at hverdict
    refine ⟨fun hlast hslotted => ?_, hgoes, hverdict⟩
    obtain ⟨hdefers, hcloses⟩ := hlastly hlast hslotted
    refine ⟨fun h => hdefers (hfull.mpr h), fun h => ?_⟩
    obtain ⟨hclosed, hprom⟩ := hcloses (hnotfull.mpr h)
    exact ⟨hclosed, hpromoted hprom⟩

end Sys2Proof.Machine
end


section
/-! Day numbers of labels, and the forward distance (R40, R41, R48). -/

namespace Sys2Proof.Machine

namespace RateClass

/-! ## The day number of a label (R40, R41) -/

theorem dayNumber_of_dropped_eq_zero {c : RateClass} (h : c.dropped = 0) (l : Label) :
    c.dayNumber l = (3600 * l.hh + 60 * l.mm + l.ss) * c.fps + l.ff := by
  simp only [dayNumber, h, Nat.zero_mul, Nat.sub_zero]

/-! ## Forward distance (R48) -/

theorem dayCount_pos (c : RateClass) : 0 < c.dayCount := by cases c <;> decide

theorem two_dvd_dayCount (c : RateClass) : 2 ∣ c.dayCount := by cases c <;> decide

theorem forward_lt_dayCount (c : RateClass) (a b : Nat) : c.forward a b < c.dayCount :=
  Nat.mod_lt _ c.dayCount_pos

theorem natCast_forward (c : RateClass) (a b : Nat) :
    (c.forward a b : Int) = ((b : Int) - (a : Int)) % (c.dayCount : Int) := by
  have hle : a % c.dayCount ≤ b + c.dayCount := ((Nat.mod_lt a c.dayCount_pos).le).trans (Nat.le_add_left ..)
  have hb : (b + c.dayCount : Int) ≡ b [ZMOD c.dayCount] := Int.add_modEq_right
  have ha : (a % c.dayCount : Int) ≡ a [ZMOD c.dayCount] := Int.mod_modEq ..
  rw [forward, Int.natCast_emod, Int.natCast_sub hle, Int.natCast_add, Int.natCast_emod]
  exact hb.sub ha

theorem atOrAfter_iff (c : RateClass) (a b : Nat) : c.atOrAfter a b = true ↔ 2 * c.forward a b < c.dayCount := by
  rw [atOrAfter, decide_eq_true_iff, Nat.lt_div_iff_mul_lt' c.two_dvd_dayCount]

end RateClass

/-- Settles O53: the classes differ in the labels a minute drops; without drops the subtracted term is 0. -/
theorem dayNumberFormula : Obligations.DayNumberFormula := fun l =>
  ⟨RateClass.dayNumber_of_dropped_eq_zero rfl l, RateClass.dayNumber_of_dropped_eq_zero rfl l, rfl, rfl⟩

/-- Settles O54. -/
theorem forwardDistanceTest : Obligations.ForwardDistanceTest := fun c a b =>
  ⟨c.natCast_forward a b, c.forward_lt_dayCount a b, c.atOrAfter_iff a b⟩

end Sys2Proof.Machine
end


section
/-! Labels and day numbers correspond one to one (R39 to R42). Both are read off one place in the day: the group of ten
minutes, the minute in the group, and the label slot in the minute. Each valid label and each day number has its
place. -/

namespace Sys2Proof.Machine

/-! ## The rate classes (R38, R39) -/

namespace RateClass

theorem fps_pos (c : RateClass) : 0 < c.fps := by cases c <;> decide

/-- R42's group size: the labels of ten minutes. -/
def groupSize (c : RateClass) : Nat := 600 * c.fps - 9 * c.dropped

/-- R42's minute length: the labels of a minute that drops some. -/
def minuteLength (c : RateClass) : Nat := 60 * c.fps - c.dropped

theorem minuteLength_pos (c : RateClass) : 0 < c.minuteLength := by cases c <;> decide

theorem minuteLength_add_dropped (c : RateClass) : c.minuteLength + c.dropped = 60 * c.fps := by cases c <;> rfl

theorem groupSize_eq (c : RateClass) : c.groupSize = 10 * c.minuteLength + c.dropped := by cases c <;> rfl

theorem dayCount_eq (c : RateClass) : c.dayCount = c.groupSize * 144 := by cases c <;> rfl

theorem valid_iff (c : RateClass) (l : Label) : c.valid l = true ↔
    l.hh < 24 ∧ l.mm < 60 ∧ l.ss < 60 ∧ l.ff < c.fps ∧ (l.mm % 10 = 0 ∨ l.ss ≠ 0 ∨ c.dropped ≤ l.ff) := by
  simp only [valid, Bool.and_eq_true, Bool.not_eq_true', Bool.and_eq_false_iff, bne_eq_false_iff_eq,
    beq_eq_false_iff_ne, decide_eq_true_iff, decide_eq_false_iff_not, Nat.not_lt, and_assoc, or_assoc]

end RateClass

/-- R42's minute term: minute `k` of a group, `d` labels dropped and `m` left in each but the first, is found by
division. -/
theorem minuteTerm_eq {d m k x : Nat} (hx : x < m + d) (hkept : k = 0 ∨ d ≤ x) :
    (if d ≤ m * k + x then d * ((m * k + x - d) / m) else 0) = d * k := by
  by_cases hd : d ≤ x
  · have hlt : x - d < m := by omega
    rw [if_pos (hd.trans (Nat.le_add_left ..)), Nat.add_sub_assoc hd, Nat.mul_add_div (by omega), Nat.div_eq_of_lt hlt,
      Nat.add_zero]
  · obtain rfl : k = 0 := hkept.resolve_right hd
    rw [if_neg (by omega), Nat.mul_zero]

/-- R42's sum for a drop-frame class: the group is found by division as well. -/
theorem dropSum_eq {d m g k x : Nat} (hk : k < 10) (hx : x < m + d) (hkept : k = 0 ∨ d ≤ x) :
    let n := (10 * m + d) * g + (m * k + x)
    let r := n % (10 * m + d)
    n + 9 * d * (n / (10 * m + d)) + (if d ≤ r then d * ((r - d) / m) else 0) = (m + d) * (10 * g + k) + x := by
  intro n r
  have hrest : m * k + x < 10 * m + d := by
    have : m * k ≤ m * 9 := Nat.mul_le_mul_left m (Nat.le_of_lt_succ hk)
    omega
  have hr : r = m * k + x := (Nat.mul_add_mod ..).trans (Nat.mod_eq_of_lt hrest)
  have hgroup : n / (10 * m + d) = g := by
    rw [Nat.mul_add_div (by omega), Nat.div_eq_of_lt hrest, Nat.add_zero]
  rw [hgroup, hr, minuteTerm_eq hx hkept]
  ring

/-- A place in the day. The slots of a minute are counted with the dropped ones, as R39 numbers the labels. -/
structure DayPlace where
  group : Nat
  minute : Nat
  slot : Nat

namespace DayPlace

/-- The place is one of the day's, and its label is not dropped (R39). -/
structure Kept (c : RateClass) (p : DayPlace) : Prop where
  group_lt : p.group < 144
  minute_lt : p.minute < 10
  slot_lt : p.slot < 60 * c.fps
  not_dropped : p.minute = 0 ∨ c.dropped ≤ p.slot

/-- The label at the place. -/
def label (c : RateClass) (p : DayPlace) : Label where
  hh := p.group / 6
  mm := 10 * (p.group % 6) + p.minute
  ss := p.slot / c.fps
  ff := p.slot % c.fps

/-- The labels before the place, dropped ones counted: R42's undropped count. -/
def undropped (c : RateClass) (p : DayPlace) : Nat := 60 * c.fps * (10 * p.group + p.minute) + p.slot

/-- The labels before the place, without the dropped ones: each minute but a group's first drops some. -/
def day (c : RateClass) (p : DayPlace) : Nat :=
  c.groupSize * p.group + (c.minuteLength * p.minute + p.slot)

/-! ## Label and day number of a place -/

theorem valid_label {c : RateClass} {p : DayPlace} (h : p.Kept c) : c.valid (p.label c) = true := by
  obtain ⟨hgroup, hminute, hslot, hdropped⟩ := h
  rw [RateClass.valid_iff]
  have hmod : (10 * (p.group % 6) + p.minute) % 10 = p.minute := by omega
  have hfirst : p.slot / c.fps = 0 → p.slot % c.fps = p.slot := fun h0 =>
    Nat.mod_eq_of_lt ((Nat.div_eq_zero_iff_lt c.fps_pos).mp h0)
  refine ⟨?_, ?_, Nat.div_lt_of_lt_mul (Nat.mul_comm .. ▸ hslot), Nat.mod_lt _ c.fps_pos, ?_⟩
  · change p.group / 6 < 24
    omega
  · change 10 * (p.group % 6) + p.minute < 60
    omega
  · change (10 * (p.group % 6) + p.minute) % 10 = 0 ∨ p.slot / c.fps ≠ 0 ∨ c.dropped ≤ p.slot % c.fps
    rw [hmod]
    refine hdropped.imp_right fun hd => ?_
    rw [← imp_iff_not_or]
    exact fun h0 => (hfirst h0).symm ▸ hd

theorem dayNumber_label {c : RateClass} {p : DayPlace} (h : p.minute < 10) : c.dayNumber (p.label c) = p.day c := by
  have hminutes : 60 * (p.group / 6) + (10 * (p.group % 6) + p.minute) = 10 * p.group + p.minute := by omega
  have htens : (10 * p.group + p.minute) / 10 = p.group := by omega
  simp only [RateClass.dayNumber, label, day, hminutes, htens]
  cases c <;> simp only [RateClass.fps, RateClass.dropped, RateClass.groupSize, RateClass.minuteLength] <;> omega

theorem undropped_day {c : RateClass} {p : DayPlace} (h : p.Kept c) : c.undropped (p.day c) = p.undropped c := by
  obtain ⟨-, hminute, hslot, hdropped⟩ := h
  cases c with
  | fps25 | fps50 =>
    simp only [RateClass.undropped, undropped, day, RateClass.groupSize, RateClass.minuteLength, RateClass.fps,
      RateClass.dropped]
    omega
  | drop30 => exact dropSum_eq (d := 2) (m := 1798) hminute hslot hdropped
  | drop60 => exact dropSum_eq (d := 4) (m := 3596) hminute hslot hdropped

/-- R42's split of the undropped count finds the label of the place. -/
theorem label_day {c : RateClass} {p : DayPlace} (h : p.Kept c) : c.label (p.day c) = p.label c := by
  rw [RateClass.label, undropped_day h]
  obtain ⟨-, hminute, hslot, -⟩ := h
  simp only [label, undropped, Label.mk.injEq]
  cases c <;> simp only [RateClass.fps] at * <;> omega

theorem minute_slot_lt {c : RateClass} {p : DayPlace} (h : p.Kept c) :
    c.minuteLength * p.minute + p.slot < c.groupSize := by
  have hminute : c.minuteLength * p.minute ≤ c.minuteLength * 9 :=
    Nat.mul_le_mul_left _ (Nat.le_of_lt_succ h.minute_lt)
  have hslot := h.slot_lt
  rw [← c.minuteLength_add_dropped] at hslot
  rw [c.groupSize_eq]
  omega

theorem day_lt_dayCount {c : RateClass} {p : DayPlace} (h : p.Kept c) : p.day c < c.dayCount := by
  rw [c.dayCount_eq]
  calc p.day c
    _ < c.groupSize * (p.group + 1) := Nat.add_lt_add_left (minute_slot_lt h) _
    _ ≤ c.groupSize * 144 := Nat.mul_le_mul_left _ h.group_lt

/-! ## The place of a label, and of a day number -/

/-- The place of a valid label. -/
def ofLabel (c : RateClass) (l : Label) : DayPlace := ⟨6 * l.hh + l.mm / 10, l.mm % 10, c.fps * l.ss + l.ff⟩

theorem kept_ofLabel {c : RateClass} {l : Label} (h : c.valid l = true) : (ofLabel c l).Kept c := by
  obtain ⟨hhh, hmm, hss, hff, hdropped⟩ := (c.valid_iff l).mp h
  have hle : c.fps * (l.ss + 1) ≤ c.fps * 60 := Nat.mul_le_mul_left _ hss
  rw [Nat.mul_succ] at hle
  refine ⟨?_, Nat.mod_lt _ (by decide), ?_, hdropped.imp_right ?_⟩
  · change 6 * l.hh + l.mm / 10 < 144
    omega
  · change c.fps * l.ss + l.ff < 60 * c.fps
    omega
  · rintro (hs | hd)
    · have hdrop : c.dropped ≤ c.fps := by cases c <;> decide
      exact hdrop.trans ((Nat.le_mul_of_pos_right _ (Nat.pos_of_ne_zero hs)).trans (Nat.le_add_right ..))
    · exact hd.trans (Nat.le_add_left ..)

theorem label_ofLabel {c : RateClass} {l : Label} (h : c.valid l = true) : (ofLabel c l).label c = l := by
  obtain ⟨-, hmm, -, hff, -⟩ := (c.valid_iff l).mp h
  have hhour : (6 * l.hh + l.mm / 10) / 6 = l.hh := by omega
  have hminute : 10 * (l.mm / 10 % 6) + l.mm % 10 = l.mm := by omega
  simp only [label, ofLabel, hhour, Nat.mul_add_mod, hminute, Nat.mul_add_div c.fps_pos, Nat.div_eq_of_lt hff,
    Nat.add_zero, Nat.mod_eq_of_lt hff]

/-- The place of a day number. A group's first minute holds all its labels; subtracting the dropped count before the
division makes room for the ones it has more than a later minute. -/
def ofDay (c : RateClass) (n : Nat) : DayPlace :=
  let rest := n % c.groupSize
  let minute := (rest - c.dropped) / c.minuteLength
  ⟨n / c.groupSize, minute, rest - c.minuteLength * minute⟩

theorem kept_ofDay {c : RateClass} {n : Nat} (h : n < c.dayCount) : (ofDay c n).Kept c := by
  have hpos : 0 < c.groupSize := by
    have := c.minuteLength_pos
    rw [c.groupSize_eq]
    omega
  have hrest : n % c.groupSize < 10 * c.minuteLength + c.dropped := c.groupSize_eq ▸ Nat.mod_lt n hpos
  generalize hr : n % c.groupSize = r at hrest
  have hsplit := Nat.div_add_mod (r - c.dropped) c.minuteLength
  have hover := Nat.mod_lt (r - c.dropped) c.minuteLength_pos
  refine ⟨Nat.div_lt_of_lt_mul (c.dayCount_eq ▸ h), ?_, ?_, ?_⟩ <;> simp only [ofDay, hr]
  · refine Nat.div_lt_of_lt_mul ?_
    have := c.minuteLength_pos
    omega
  · rw [← c.minuteLength_add_dropped]
    omega
  · refine (Nat.eq_zero_or_pos _).imp_right fun hminute => ?_
    have hroom : 0 < r - c.dropped := Nat.pos_of_div_pos hminute
    omega

theorem day_ofDay (c : RateClass) (n : Nat) : (ofDay c n).day c = n := by
  have hle : c.minuteLength * (ofDay c n).minute ≤ n % c.groupSize := (Nat.mul_div_le ..).trans (Nat.sub_le ..)
  calc (ofDay c n).day c
    _ = c.groupSize * (n / c.groupSize) + n % c.groupSize := congrArg _ (Nat.add_sub_cancel' hle)
    _ = n := Nat.div_add_mod ..

end DayPlace

/-- Settles O55: at the place of the label, or of the day number, each converts to the other. -/
theorem labelRoundTrip : Obligations.LabelRoundTrip := by
  refine fun c => ⟨fun n hn => ?_, fun l hl => ?_⟩
  · have hp := DayPlace.kept_ofDay hn
    have hlabel : c.label n = (DayPlace.ofDay c n).label c := by
      rw [← DayPlace.label_day hp, DayPlace.day_ofDay]
    rw [hlabel, DayPlace.dayNumber_label hp.minute_lt]
    exact ⟨DayPlace.valid_label hp, DayPlace.day_ofDay c n⟩
  · have hp := DayPlace.kept_ofLabel hl
    have hday : c.dayNumber l = (DayPlace.ofLabel c l).day c := by
      rw [← DayPlace.dayNumber_label hp.minute_lt, DayPlace.label_ofLabel hl]
    rw [hday, DayPlace.label_day hp]
    exact ⟨DayPlace.day_lt_dayCount hp, DayPlace.label_ofLabel hl⟩

end Sys2Proof.Machine
end


section
/-! The pool only loses slots by the blocks' own acts (R53 to R55, R61, R63): between grants no slot leaves FREE, none changes
its feed, and a held list loses at most the slots that became FREE. -/

namespace Sys2Proof.Machine

namespace Engine

/-- Slot `i` is FREE, and no held list names it. -/
def Gone (e : Engine) (i : SlotId) : Prop := e.slots[i] = none ∧ ∀ f : FeedId, i ∉ e.held[f]

/-- From engine `a` to `e`, the pool has at most lost slots: the held lists keep their order, and a slot that is not gone has
kept its feed, or its being FREE, and its place in the held lists. -/
structure Releases (a e : Engine) : Prop where
  held : ∀ f : FeedId, (e.held[f]).Sublist a.held[f]
  slots : ∀ i : SlotId, e.Gone i ∨
    e.slots[i].map (·.feed) = a.slots[i].map (·.feed) ∧ ∀ f : FeedId, i ∈ a.held[f] → i ∈ e.held[f]

namespace Releases

variable {x : Front} {a e : Engine}

theorem refl (e : Engine) : Releases e e := ⟨fun _ => List.Sublist.refl _, fun _ => .inr ⟨rfl, fun _ h => h⟩⟩

theorem trans {b c : Engine} (h : Releases a b) (k : Releases b c) : Releases a c := by
  refine ⟨fun f => (k.held f).trans (h.held f), fun i => ?_⟩
  rcases k.slots i with hk | ⟨hfeed, hheld⟩
  · exact .inl hk
  · rcases h.slots i with ⟨hfree, hout⟩ | ⟨hfeed', hheld'⟩
    · rw [hfree, Option.map_none] at hfeed
      exact .inl ⟨Option.map_eq_none_iff.mp hfeed, fun f hi => hout f ((k.held f).subset hi)⟩
    · exact .inr ⟨hfeed.trans hfeed', fun f hi => hheld f (hheld' f hi)⟩

/-- A slot that is gone stays so. -/
theorem gone (h : Releases a e) {i : SlotId} (hi : a.Gone i) : e.Gone i := by
  obtain ⟨hfree, hout⟩ := hi
  rcases h.slots i with hgone | ⟨hfeed, -⟩
  · exact hgone
  · rw [hfree, Option.map_none] at hfeed
    exact ⟨Option.map_eq_none_iff.mp hfeed, fun f hi => hout f ((h.held f).subset hi)⟩

theorem heldBy_eq_any (e : Engine) (f : FeedId) (i : SlotId) :
    e.heldBy f i = (e.slots[i].map (·.feed)).any (· == f) := by
  rw [Option.any_map]; rfl

/-- Held lists that agree with the slots go on to do so. -/
theorem poolGood (h : Releases a e) (ha : a.poolGood) : e.poolGood := by
  intro f
  obtain ⟨hnodup, hmem⟩ := ha f
  refine ⟨(h.held f).nodup hnodup, fun i => ?_⟩
  rcases h.slots i with ⟨hfree, hout⟩ | ⟨hfeed, hheld⟩
  · rw [heldBy, hfree]
    exact ⟨fun hi => absurd hi (hout f), nofun⟩
  · rw [heldBy_eq_any, hfeed, ← heldBy_eq_any, ← hmem i]
    exact ⟨fun hi => (h.held f).subset hi, hheld f⟩

/-! ### Changes that leave the pool -/

theorem same {u : Engine} (h : Releases a e) (hs : u.slots = e.slots) (hh : u.held = e.held) : Releases a u :=
  h.trans ⟨fun f => by rw [hh], fun i => .inr ⟨by rw [hs], fun f hi => by rwa [hh]⟩⟩

theorem ite {p : Prop} [Decidable p] {u v : Engine} (hu : Releases a u) (hv : Releases a v) :
    Releases a (if p then u else v) := by
  split
  · exact hu
  · exact hv

theorem ask {w : WriteRequest} (h : Releases a e) : Releases a (e.ask w) := h.same (ask_slots ..) (ask_held ..)

theorem askState {t : Nat} {sheet : HostAddr} {st : SheetState} (h : Releases a e) : Releases a (e.askState t sheet st) :=
  h.ask.ask

theorem updTake {t : Nat} {g : Take → Take} (h : Releases a e) : Releases a (e.updTake t g) := h.same rfl rfl

theorem updPlaces {f : FeedId} {g : Places → Places} (h : Releases a e) : Releases a (e.updPlaces f g) := h.same rfl rfl

theorem withdrawReads {p : ReadRequest → Bool} (h : Releases a e) : Releases a (e.withdrawReads p) := h.same rfl rfl

theorem askRead {r : ReadRequest} (h : Releases a e) : Releases a (e.askRead r) := h.same rfl rfl

theorem setMover {m : MoverState} (h : Releases a e) : Releases a (e.setMover m) := h.same rfl rfl

theorem setCheck {c : Option (SlotId × CheckStage)} (h : Releases a e) : Releases a (e.setCheck c) := h.same rfl rfl

theorem setInHand {c : Option (Nat × WriterStage)} (h : Releases a e) : Releases a (e.setInHand c) := h.same rfl rfl

theorem setBusy {q : Requester} {p : Payload} {i : Option SlotId} (h : Releases a e) : Releases a (e.setBusy q p i) :=
  h.same rfl rfl

theorem dropTake {n : Nat} (h : Releases a e) : Releases a (e.dropTake n) := h.same rfl rfl

theorem foldl {α : Type} {g : Engine → α → Engine} (hg : ∀ {e b}, Releases a e → Releases a (g e b)) (l : List α)
    (h : Releases a e) : Releases a (l.foldl g e) := by
  induction l generalizing e with
  | nil => exact h
  | cons b l ih => exact ih (hg h)

theorem setCauses {f : FeedId} {c : BitVec 9} (h : Releases a e) : Releases a (e.setCauses x f c) := by
  rw [Engine.setCauses_eq]; exact h.same rfl rfl

theorem raise {f : FeedId} {c : Cause} (h : Releases a e) : Releases a (e.raise x f c) := h.setCauses

theorem syncConditions {f : FeedId} (h : Releases a e) : Releases a (e.syncConditions x f) := h.setCauses

theorem oweMessage {b : Bool} (h : Releases a e) : Releases a (e.oweMessage x b) := by
  rw [Engine.oweMessage_eq]; exact h.same rfl rfl

theorem raiseGlobal (h : Releases a e) : Releases a (e.raiseGlobal x) := by
  unfold Engine.raiseGlobal
  exact .oweMessage (h.same rfl rfl)

theorem settleOwed {mask : BitVec 17} (h : Releases a e) : Releases a (e.settleOwed mask) := .ite h (h.same rfl rfl)

theorem queueEvent {t : Nat} {b : RecordBody} (h : Releases a e) : Releases a (e.queueEvent t b) := by
  rw [Engine.queueEvent_eq]; exact h.same rfl rfl

theorem queueEvents {t : Nat} {bs : List RecordBody} (h : Releases a e) : Releases a (e.queueEvents t bs) := by
  rw [Engine.queueEvents_eq]; exact h.same rfl rfl

theorem queueBehind {n t : Nat} {bs : List RecordBody} (h : Releases a e) : Releases a (e.queueBehind n t bs) := by
  rw [Engine.queueBehind_eq]; exact h.same rfl rfl

theorem queueStart {f : FeedId} {t : Nat} {r : StartRecord} (h : Releases a e) : Releases a (e.queueStart f t r) := by
  rw [Engine.queueStart_eq]; exact h.same rfl rfl

theorem queueEnd {f : FeedId} {t : Nat} (h : Releases a e) : Releases a (e.queueEnd f t) := by
  rw [Engine.queueEnd_eq]; exact h.same rfl rfl

theorem withdrawWriter {t : Nat} (h : Releases a e) : Releases a (e.withdrawWriter t) := by
  rw [Engine.withdrawWriter_eq]; exact h.same rfl rfl

theorem withdrawAtSplit {kind : Exhaustion} {t : Take} (h : Releases a e) : Releases a (e.withdrawAtSplit kind t) := by
  rw [Engine.withdrawAtSplit_eq]; exact h.same rfl rfl

theorem moveRecords {kind : Exhaustion} {t g : Take} (h : Releases a e) : Releases a (e.moveRecords kind t g) := by
  rw [Engine.moveRecords_eq]; exact h.same rfl rfl

theorem withdrawMover {i : SlotId} (h : Releases a e) : Releases a (e.withdrawMover i) := by
  unfold Engine.withdrawMover
  split
  · exact h
  · split
    · exact h.same rfl rfl
    · exact h
  · split
    · exact h.same rfl rfl
    · exact h

theorem withdrawCheck {i : SlotId} (h : Releases a e) : Releases a (e.withdrawCheck i) := by
  unfold Engine.withdrawCheck
  split
  · split
    · exact h.same rfl rfl
    · exact h
  · exact h

theorem abandonReduction {i : SlotId} (h : Releases a e) : Releases a (e.abandonReduction i) := by
  unfold Engine.abandonReduction
  split
  · split
    · exact h.same rfl rfl
    · exact h
  · exact h

/-! ### Changes of slots -/

/-- A change of a slot's record that keeps its feed. -/
theorem updSlot {i : SlotId} {g : Slot → Slot} (hg : ∀ s, (g s).feed = s.feed) (h : Releases a e) :
    Releases a (e.updSlot i g) := by
  refine h.trans ⟨fun f => List.Sublist.refl _, fun j => .inr ⟨?_, fun _ hi => hi⟩⟩
  rw [updSlot_slots, upd_get]
  split
  · rename_i hij
    rw [← hij, Option.map_map]
    exact Option.map_congr fun s _ => hg s
  · rfl

theorem freeSlot_gone (i : SlotId) (e : Engine) : (e.freeSlot i).Gone i := by
  refine ⟨upd_same .., fun f => ?_⟩
  simp [Engine.freeSlot]

theorem freeSlot {i : SlotId} (h : Releases a e) : Releases a (e.freeSlot i) := by
  have hheld : ∀ f : FeedId, (e.freeSlot i).held[f] = (e.held[f]).filter fun j => j != i := fun f => by
    simp [Engine.freeSlot]
  refine h.trans ⟨fun f => by rw [hheld]; exact List.filter_sublist, fun j => ?_⟩
  by_cases hj : j = i
  · exact .inl (hj ▸ freeSlot_gone i e)
  · refine .inr ⟨by rw [freeSlot_slots, upd_other _ hj], fun f hi => ?_⟩
    rw [hheld, List.mem_filter]
    exact ⟨hi, bne_iff_ne.mpr hj⟩

theorem trySettle {i : SlotId} (h : Releases a e) : Releases a (e.trySettle i) := by
  unfold Engine.trySettle
  split
  · exact h
  · split
    · exact h
    · exact .updTake (h.updSlot fun _ => rfl)

theorem decideBrowse {i : SlotId} {o : BrowseOutcome} (h : Releases a e) : Releases a (e.decideBrowse i o) :=
  .trySettle (h.updSlot fun _ => rfl)

theorem abandonSlot {i : SlotId} (h : Releases a e) : Releases a (e.abandonSlot i) := by
  have hleft : Releases a (((e.withdrawMover i).withdrawCheck i).abandonReduction i) :=
    h.withdrawMover.withdrawCheck.abandonReduction
  unfold Engine.abandonSlot
  dsimp only
  split
  · exact .updSlot (fun _ => rfl) (hleft.same rfl rfl)
  · exact .freeSlot (hleft.same rfl rfl)

theorem moveFrame {t : Nat} {browseOn : Bool} {p : SlotId × Nat} (h : Releases a e) :
    Releases a (e.moveFrame t browseOn p) :=
  h.withdrawMover.withdrawCheck.abandonReduction.updSlot fun _ => rfl

theorem skipOldest {f : FeedId} (h : Releases a e) : Releases a (e.skipOldest f) := by
  unfold Engine.skipOldest
  split
  · exact h
  · exact h.withdrawCheck.decideBrowse

theorem skipDownTo {n : Nat} {f : FeedId} (fuel : Nat) (h : Releases a e) : Releases a (e.skipDownTo n f fuel) := by
  induction fuel generalizing e with
  | zero => exact h
  | succ fuel ih =>
    unfold Engine.skipDownTo
    split
    · exact ih h.skipOldest
    · exact h

theorem frameReady {f : FeedId} {i : SlotId} {padded : Bool} {n : Nat} (h : Releases a e) :
    Releases a (e.frameReady x f i padded n) := by
  have hclosed : Releases a { e with opened := upd e.opened f fun _ => none } := h.same rfl rfl
  exact .updSlot (fun _ => rfl) (.ite (hclosed.skipDownTo 96) hclosed)

theorem frameEmpty {f : FeedId} {i : SlotId} (h : Releases a e) : Releases a (e.frameEmpty f i) := by
  have hclosed : Releases a { e with opened := upd e.opened f fun _ => none } := h.same rfl rfl
  unfold Engine.frameEmpty
  dsimp only
  split
  · exact hclosed
  · exact hclosed.updTake.freeSlot

/-! ### Takes begin, close and end -/

theorem beginTake {f : FeedId} {t : Nat} {first : Bool} {c : Count} {tc : Timecode} (h : Releases a e) :
    Releases a (e.beginTake x f t first c tc) := by
  unfold Engine.beginTake
  dsimp only
  split
  · exact h
  · exact h.updTake.queueStart.queueBehind.updTake.askState.raise.ask

theorem promote {f : FeedId} {t : Take} {mode : StartMode} (h : Releases a e) : Releases a (e.promote f t mode) :=
  h.updPlaces.updTake.askState.ask

theorem cancelTake {t : Take} (h : Releases a e) : Releases a (e.cancelTake t) := h.updTake.ask

theorem abortUnbegun {t : Take} (h : Releases a e) : Releases a (e.abortUnbegun t) := h.withdrawReads.cancelTake

theorem cancelStaged {f : FeedId} (h : Releases a e) : Releases a (e.cancelStaged f) := by
  unfold Engine.cancelStaged
  split
  · exact h
  · exact h.cancelTake.updPlaces

theorem supersedeStaged {f : FeedId} (h : Releases a e) : Releases a (e.supersedeStaged f) := by
  unfold Engine.supersedeStaged
  split
  · exact h
  · exact h.updTake.ask.updPlaces

theorem closeLive {f : FeedId} {t : Take} {reason : CloseReason} {c : Count} (h : Releases a e) :
    Releases a (e.closeLive f t reason c) :=
  h.updPlaces.updTake.queueEnd.askState.ask

theorem deferStop {f : FeedId} {t : Take} {reason : CloseReason} (h : Releases a e) :
    Releases a (e.deferStop f t reason) := h.updPlaces.updTake

theorem promoteAfterClose {f : FeedId} {reason : CloseReason} (h : Releases a e) :
    Releases a (e.promoteAfterClose f reason) := by
  unfold Engine.promoteAfterClose
  split
  · exact h
  · split
    · exact h.cancelStaged
    · exact h.cancelStaged
    · exact h.cancelStaged
    · exact h.promote

theorem promoteAfterDeferral {f : FeedId} {reason : CloseReason} (h : Releases a e) :
    Releases a (e.promoteAfterDeferral f reason) := by
  unfold Engine.promoteAfterDeferral
  split
  · exact h
  · exact h.promote

theorem endTake {f : FeedId} {reason : CloseReason} {t : Take} (h : Releases a e) :
    Releases a (e.endTake x f reason t) := by
  have hgone := foldl (g := Engine.abandonSlot) abandonSlot (e.slotsOf t.id) h
  unfold Engine.endTake
  dsimp only
  split
  · exact hgone.withdrawReads.withdrawWriter.updPlaces.updTake.queueEnd
  · exact hgone.withdrawReads.withdrawWriter.updPlaces.updTake.askState

theorem endTakes {f : FeedId} {reason : CloseReason} (h : Releases a e) : Releases a (e.endTakes x f reason) := by
  have hended := fun l => foldl (g := Engine.endTake x f reason) endTake l h
  have hplaced : ∀ {u : Engine}, Releases a u →
      Releases a ((u.cancelStaged f).updPlaces f fun p => { p with live := none, deferredStop := none }) :=
    fun hu => hu.cancelStaged.updPlaces
  unfold Engine.endTakes
  cases e.liveTake f with
  | none => exact .syncConditions (.ite (hplaced (hended _)).ask (hplaced (hended _)))
  | some t =>
    have hlive := fun l => ite (p := t.state = .armed) ((hended l).abortUnbegun (t := t)) (hended l)
    exact .syncConditions (.ite (hplaced (hlive _)).ask (hplaced (hlive _)))

theorem stopTake {f : FeedId} {t : Take} (h : Releases a e) : Releases a (e.stopTake x f t) := by
  have hcancelled : Releases a (e.cancelLive f t) := h.cancelTake.updPlaces.ask
  unfold Engine.stopTake
  split
  · split
    · exact hcancelled
    · exact hcancelled.promote
  · exact .ite h (.ite h.deferStop h.closeLive.promoteAfterClose)

theorem haltTake {f : FeedId} {t : Take} (h : Releases a e) : Releases a (e.haltTake x f t) :=
  .cancelStaged (.ite h.cancelTake.updPlaces.ask (.ite h (.ite h.deferStop h.closeLive.promoteAfterClose)))

theorem placeLive {f : FeedId} {t : Take} (h : Releases a e) : Releases a (e.placeLive f t) :=
  .ask (.askState (.updPlaces (h.same rfl rfl)))

theorem placeStaged {f : FeedId} {t : Take} (h : Releases a e) : Releases a (e.placeStaged f t) :=
  .askState (.updPlaces (h.supersedeStaged.same rfl rfl))

theorem placeTake {f : FeedId} {t : Take} (h : Releases a e) : Releases a (e.placeTake x f t) := by
  unfold Engine.placeTake
  split
  · exact h.placeLive
  · exact .ite (.ite h.placeStaged (.ite h.placeStaged.deferStop h.supersedeStaged.closeLive.placeLive)) h.placeStaged

theorem toStandby (h : Releases a e) : Releases a e.toStandby := by
  have hdropped := foldl (g := Engine.dropEnding) (fun {u n} hu => (hu.dropTake (n := n)).same rfl rfl)
    (e.places.toList.map (·.ending)).flatten h
  exact (hdropped.withdrawReads (p := ReadRequest.forTake)).same rfl rfl

theorem askReread {refill : Bool} {t : Take} (h : Releases a e) : Releases a (e.askReread refill t) :=
  .ite (h.same rfl rfl) h.askRead

theorem discardTail {kind : Exhaustion} {n : Nat} (h : Releases a e) : Releases a (e.discardTail kind n) := by
  have hgone : ∀ (l : List SlotId) {u : Engine}, Releases a u → Releases a (l.foldl Engine.abandonSlot u) :=
    fun l _ => foldl abandonSlot l
  unfold Engine.discardTail
  split
  · exact h
  · dsimp only
    split
    · exact hgone _ h.withdrawAtSplit.updTake
    · exact .ask (hgone _ h.withdrawAtSplit.updTake)

theorem rollover {f : FeedId} {kind : Exhaustion} {n : Nat} {g : Take} (h : Releases a e) :
    Releases a (e.rollover x f kind n g) := by
  unfold Engine.rollover
  split
  · exact h
  · rename_i t ht
    dsimp only
    have hmoved := fun first c tc => foldl (g := Engine.moveFrame g.id g.browseOn) moveFrame
      (frameSlots (e.tailRecords kind t)).zipIdx (beginTake (x := x) (f := f) (t := g.id) (first := first) (c := c) (tc := tc)
        (h.moveRecords (kind := kind) (t := t) (g := g)
          |>.updPlaces (f := f) (g := fun p => { p with live := some g.id, staged := none })))
    split
    · split
      · exact (hmoved _ _ _).deferStop
      · exact (hmoved _ _ _).closeLive.promoteAfterClose
    · exact hmoved _ _ _

theorem closeExhausted {f : FeedId} {kind : Exhaustion} {t : Take} (h : Releases a e) :
    Releases a (e.closeExhausted x f kind t) := by
  unfold Engine.closeExhausted
  dsimp only
  split
  · exact h.closeLive.discardTail
  · split
    · exact h.closeLive.rollover
    · exact h.closeLive.discardTail.promote

theorem findExhausted {kind : Exhaustion} {n : Nat} (h : Releases a e) : Releases a (e.findExhausted x kind n) := by
  unfold Engine.findExhausted
  split
  · exact h
  · rename_i t ht
    dsimp only
    have hfound : ∀ g p, Releases a (((e.updTake n g).withdrawReads p).syncConditions x t.feed) :=
      fun g p => h.updTake.withdrawReads.syncConditions
    split
    · split
      · exact h.discardTail
      · exact h
    · split
      · exact (hfound _ _).discardTail
      · split
        · exact hfound _ _
        · split
          · exact (hfound _ _).deferStop
          · exact (hfound _ _).closeExhausted

theorem effectDeferred {f : FeedId} (h : Releases a e) : Releases a (e.effectDeferred x f) := by
  unfold Engine.effectDeferred
  split
  · dsimp only
    have hdone : Releases a (e.updPlaces f fun p => { p with deferredStop := none }) := h.updPlaces
    split
    · exact hdone.closeExhausted
    · refine .promoteAfterDeferral ?_
      split
      · exact hdone.closeLive.discardTail
      · exact hdone.closeLive
  · exact h

theorem leaveClosing {t : Take} (h : Releases a e) : Releases a (e.leaveClosing x t) :=
  h.dropTake.updPlaces.raise.syncConditions.effectDeferred.syncConditions

theorem stateWritten {n : Nat} {st : SheetState} (h : Releases a e) : Releases a (e.stateWritten x n st) := by
  unfold Engine.stateWritten
  split
  · exact h
  · cases st with
    | closed =>
      dsimp only
      split
      · exact h
      · exact h.leaveClosing
    | aborted => exact h.dropTake.updPlaces.raise
    | cancelled | superseded => exact h.dropTake
    | armed | staged | recording | closing => exact h

/-! ### Room checks -/

theorem starveEssence {t : Take} (h : Releases a e) : Releases a (e.starveEssence x t) := by
  unfold Engine.starveEssence
  split
  · exact h.findExhausted
  · split
    · exact h
    · exact h.updTake.queueEvent.syncConditions

theorem moverCheck {i : SlotId} {failed : Bool} (h : Releases a e) : Releases a (e.moverCheck x i failed) := by
  have hidle : Releases a (e.setMover .idle) := h.setMover
  unfold Engine.moverCheck
  split
  · exact hidle
  · split
    · exact .setMover (h.updSlot fun _ => rfl)
    · split
      · exact hidle.starveEssence
      · exact h.askRead.setMover
    · exact hidle.starveEssence
    · exact hidle.findExhausted

theorem refeedCheck {t : Take} {failed : Bool} (h : Releases a e) : Releases a (e.refeedCheck x t failed) := by
  have hset : ∀ st, Releases a (e.setRefeed t.id st) := fun st => h.updTake
  unfold Engine.refeedCheck
  split
  · exact hset _
  · split
    · exact h.updTake.queueEvent.syncConditions
    · split
      · exact hset _
      · exact h.askRead.updTake
    · exact hset _
    · exact (hset _).findExhausted

theorem reducerCheck {i : SlotId} {failed : Bool} (h : Releases a e) : Releases a (e.reducerCheck x i failed) := by
  have hfree : Releases a (e.setCheck none) := h.setCheck
  unfold Engine.reducerCheck
  split
  · exact hfree
  · split
    · exact (h.updSlot (i := i) (g := fun s => { s with browse := .reducing }) fun _ => rfl).same rfl rfl
    · split
      · exact hfree.decideBrowse
      · exact h.askRead.setCheck
    · exact hfree.decideBrowse
    · exact hfree.decideBrowse

theorem writerAct {t : Take} {w : WriterFinding} (h : Releases a e) : Releases a (e.writerAct x t w) := by
  have hfree : Releases a (e.setInHand none) := h.setInHand
  cases w with
  | pass => exact hfree
  | write => exact h.same rfl rfl
  | read n => exact h.same rfl rfl
  | starve => exact hfree.updTake.syncConditions
  | exhaust => exact hfree.findExhausted

theorem writerCheck {n : Nat} {failed : Bool} (h : Releases a e) : Releases a (e.writerCheck x n failed) := by
  unfold Engine.writerCheck
  split
  · exact h.setInHand
  · exact h.writerAct

theorem blockStep {u : Engine} (h : Releases a e) (hu : e.blockStep x = some u) : Releases a u := by
  unfold Engine.blockStep at hu
  rcases Option.or_eq_some_iff.mp hu with hu | ⟨-, hu⟩
  · obtain ⟨t, -, rfl⟩ := Option.map_eq_some_iff.mp hu
    exact h.refeedCheck
  rcases Option.or_eq_some_iff.mp hu with hu | ⟨-, hu⟩
  · unfold Engine.moverStep at hu
    split at hu
    · obtain ⟨p, -, rfl⟩ := Option.map_eq_some_iff.mp hu
      exact h.same rfl rfl
    · cases hu
      exact h.moverCheck
    · cases hu
  rcases Option.or_eq_some_iff.mp hu with hu | ⟨-, hu⟩
  · unfold Engine.reducerStep at hu
    split at hu
    · cases hu
      exact h.reducerCheck
    · cases hu
    · split at hu
      · cases hu
      · obtain ⟨p, -, rfl⟩ := Option.map_eq_some_iff.mp hu
        exact h.same rfl rfl
  · unfold Engine.writerStep at hu
    split at hu
    · cases hu
      exact h.writerCheck
    · cases hu
    · obtain ⟨t, -, rfl⟩ := Option.map_eq_some_iff.mp hu
      exact h.writerAct

/-! ### Reads that end -/

theorem consume {t : Nat} {l : ListName} {n : Nat} {entry : HostAddr × Nat} (h : Releases a e) :
    Releases a (e.consume t l n entry) := by
  unfold Engine.consume
  split
  · exact h
  · exact .ite (.ite h.updTake.updTake.queueBehind h.updTake) (.ite h.updTake.updTake h.updTake.queueEvent)

theorem entryRead {use : EntryUse} {t n : Nat} {bytes : List Byte} (h : Releases a e) :
    Releases a (e.entryRead use t n bytes) := by
  have hread := ite (p := e.entryPosted t use.list n = true)
    (h.consume (t := t) (l := use.list) (n := n) (entry := parseEntry bytes)) h
  cases use with
  | mover =>
    unfold Engine.entryRead Engine.resumeCheck
    dsimp only
    split
    · exact hread.setMover
    · exact hread
  | refeed => exact hread.updTake
  | browse => exact hread.setCheck
  | index => exact hread.setInHand

theorem entryFailed {use : EntryUse} {t : Nat} (h : Releases a e) : Releases a (e.entryFailed x use t) := by
  cases use <;> unfold Engine.entryFailed <;> dsimp only
  case mover =>
    split
    · exact h.moverCheck
    · exact h
  case refeed =>
    split
    · exact h.refeedCheck
    · exact h
  case browse =>
    split
    · exact h.reducerCheck
    · exact h
  case index => exact h.writerCheck

/-! ### Grants of the link -/

theorem handLine (h : Releases a e) : Releases a e.handLine := by
  unfold Engine.handLine
  split
  · split
    · exact h.same rfl rfl
    · exact h
  · exact h

theorem bandComplete (h : Releases a e) : Releases a (e.bandComplete x) := by
  unfold Engine.bandComplete
  split
  · exact h
  · split
    · exact h
    · exact .handLine (h.same rfl rfl)

theorem markWritten {f : FeedId} {g : WrittenFrame → WrittenFrame} (h : Releases a e) :
    Releases a (e.markWritten x f g) := by
  unfold Engine.markWritten Engine.releaseCovered
  refine foldl (fun {u k} hu => ?_) _ (h.same rfl rfl)
  unfold Engine.release
  dsimp only
  split
  · exact hu.freeSlot.raise
  · exact hu.freeSlot

theorem writeIssued {w : WriteRequest} (h : Releases a e) : Releases a (e.writeIssued x w) := by
  unfold Engine.writeIssued
  split
  · split
    · exact h
    · exact h.markWritten
  · exact h.markWritten
  · exact h.stateWritten
  · exact h

theorem recordWritten {t : Take} {b : RecordBody} (h : Releases a e) : Releases a (e.recordWritten t b) := by
  unfold Engine.recordWritten
  split
  · exact .ask (.ask (h.same rfl rfl))
  · exact h.askState
  · exact h

theorem grantRecord {n : Nat} (h : Releases a e) : Releases a (e.grantRecord n) := by
  unfold Engine.grantRecord
  split
  · exact h.setInHand
  · split
    · exact h.setInHand
    · exact h.setBusy.setInHand.updTake.recordWritten

theorem grantEssence {i : SlotId} {next : Nat} (h : Releases a e) : Releases a (e.grantEssence x i next) := by
  unfold Engine.grantEssence
  split
  · exact h.setMover
  · dsimp only
    split
    · exact .trySettle (.setMover (.updSlot (fun _ => rfl) (h.same rfl rfl)))
    · exact .setMover (h.same rfl rfl)

theorem grantBrowse {r : Reduction} {l : LineInHand} (h : Releases a e) : Releases a (e.grantBrowse r l) := by
  unfold Engine.grantBrowse
  dsimp only
  split
  · split
    · exact .decideBrowse (h.same rfl rfl)
    · exact .handLine (h.same rfl rfl)
  · exact h.same rfl rfl

theorem grantPicture {u : Engine} (h : Releases a e) (hu : e.grantPicture x = some u) : Releases a u := by
  unfold Engine.grantPicture at hu
  split at hu
  · cases hu
    split
    · exact h.grantEssence
    · exact h.grantBrowse
  · cases hu
    exact h.grantEssence
  · cases hu
    exact h.grantBrowse
  · cases hu

theorem grantPort {u : Engine} (h : Releases a e) (hu : e.grantPort x = some u) : Releases a u := by
  unfold Engine.grantPort at hu
  split at hu
  · cases hu
    exact .writeIssued (.setBusy (h.same rfl rfl))
  · cases hu
    exact .setBusy (h.same rfl rfl)
  · cases hu

theorem arbiterStep {u : Engine} (h : Releases a e) (hu : e.arbiterStep x = some u) : Releases a u := by
  unfold Engine.arbiterStep at hu
  split at hu
  · cases hu
  rcases Option.or_eq_some_iff.mp hu with hu | ⟨-, hu⟩
  · exact h.grantPort hu
  rcases Option.or_eq_some_iff.mp hu with hu | ⟨-, hu⟩
  · unfold Engine.grantIndex at hu
    split at hu
    · cases hu
      exact h.grantRecord
    · cases hu
  · exact h.grantPicture hu

/-- A slot that drained for the completed burst is gone (R64). -/
theorem burstDone {b : Burst} (h : Releases a e) : Releases a (e.burstDone b) := by
  have hfree : Releases a { e with arbiter := { e.arbiter with busy := none } } := h.same rfl rfl
  unfold Engine.burstDone
  dsimp only
  split
  · exact hfree
  · split
    · exact hfree.freeSlot
    · exact hfree

end Releases

end Engine

end Sys2Proof.Machine
end


section
/-! Operations that leave card DRAM as it is and grant no slot: the Attention Unit's, the blocks', the applying of settings,
the reads that end, and the clock's (R53, R63, R64, R162). -/

namespace Sys2Proof.Machine

/-! ## Operations that leave card DRAM and grant no slot -/

/-- From `s` to `u`, card DRAM is left as it was and the pool has at most lost slots. -/
structure State.Releases (s u : State) : Prop where
  dram : u.front.dram = s.front.dram
  pool : s.eng.Releases u.eng

namespace State.Releases

variable {s u : State}

theorem refl (s : State) : Releases s s := ⟨rfl, .refl _⟩

theorem ite {p : Prop} [Decidable p] {v : State} (hu : Releases s u) (hv : Releases s v) :
    Releases s (if p then u else v) := by
  split
  · exact hu
  · exact hv

theorem onFront {g : Front → Front} (hg : (g u.front).dram = u.front.dram) (h : Releases s u) : Releases s (u.onFront g) :=
  ⟨hg.trans h.dram, h.pool⟩

theorem onReceiver {f : FeedId} {g : Receiver → Receiver} (h : Releases s u) : Releases s (u.onReceiver f g) :=
  ⟨h.dram, h.pool⟩

theorem onAttention {g : Attention → Attention} (h : Releases s u) : Releases s (u.onAttention g) := ⟨h.dram, h.pool⟩

theorem onFlags {g : StatusFlags → StatusFlags} (h : Releases s u) : Releases s (u.onFlags g) := ⟨h.dram, h.pool⟩

theorem act {g : Front → Engine → Engine} (hg : ∀ (x : Front) (e : Engine), e.Releases (g x e)) (h : Releases s u) :
    Releases s (u.act g) :=
  ⟨h.dram, h.pool.trans (hg _ _)⟩

theorem foldl {α : Type} {g : State → α → State} (hg : ∀ {v b}, Releases s v → Releases s (g v b)) (l : List α)
    (h : Releases s u) : Releases s (l.foldl g u) := by
  induction l generalizing u with
  | nil => exact h
  | cons b l ih => exact ih (hg h)

/-! ### Answers and requests -/

theorem answer {f : FeedId} {q : FeedRequest} {r : Result} {n : Nat} (h : Releases s u) : Releases s (u.answer f q r n) := by
  unfold State.answer
  exact .act (fun _ e => (Engine.Releases.refl e).ask.raise) h.onAttention

theorem conclude {f : FeedId} {q : FeedRequest} {r : Result} {n : Nat} (h : Releases s u) :
    Releases s (u.conclude f q r n) := h.onAttention.answer

theorem globalAnswer {q : GlobalRequest} {r : Result} (h : Releases s u) : Releases s (u.globalAnswer q r) := by
  unfold State.globalAnswer
  exact .act (fun _ e => (Engine.Releases.refl e).ask.raiseGlobal) h.onAttention

theorem serveReading {v : Service} {r : ReadRequest} (h : Releases s u) : Releases s (u.serveReading v r) :=
  .act (fun _ e => (Engine.Releases.refl e).askRead) h.onAttention

theorem takeFeed {q : FeedRequest} {f : FeedId} (h : Releases s u) : Releases s (u.takeFeed q f) := by
  unfold State.takeFeed
  split
  · exact h.onAttention
  · exact h.answer

theorem attentionFeed {q : FeedRequest} {mask : BitVec 16} (h : Releases s u) : Releases s (u.attentionFeed q mask) :=
  .ite (foldl takeFeed _ h) h.onFlags

theorem attentionGlobal {q : GlobalRequest} (h : Releases s u) : Releases s (u.attentionGlobal q) := by
  unfold State.attentionGlobal
  split
  · unfold State.takeGlobal
    refine .onAttention ?_
    split
    · exact h
    · exact h.globalAnswer
  · exact h.onFlags
  · exact .ite (.ite h.onFlags h.onAttention.serveReading) h.onFlags

theorem attentionWrite {word : BitVec 32} (h : Releases s u) : Releases s (u.attentionWrite word) := by
  unfold State.attentionWrite
  split
  · exact h.attentionFeed
  · exact h.attentionGlobal
  · exact h.onFlags

/-! ### The Attention Unit serves -/

theorem refuseWaiting {f : FeedId} (h : Releases s u) : Releases s (u.refuseWaiting f) := by
  unfold State.refuseWaiting
  split
  · exact h
  · exact h.conclude

theorem abandonLoad (h : Releases s u) : Releases s u.abandonLoad := by
  unfold State.abandonLoad
  split
  · exact h
  · exact .globalAnswer (h.onFront rfl)

theorem takeStandby (h : Releases s u) : Releases s u.takeStandby := by
  unfold State.takeStandby State.enterStandby
  exact .act (fun _ e => (Engine.Releases.refl e).same rfl rfl)
    (.onAttention (.globalAnswer (.act (fun _ e => (Engine.Releases.refl e).toStandby)
      (foldl refuseWaiting _ h.abandonLoad))))

theorem serveGlobal {q : GlobalRequest} (h : Releases s u) : Releases s (u.serveGlobal q) := by
  cases q with
  | start => exact h.onAttention.globalAnswer
  | standby => exact .ite h.onAttention.globalAnswer h.onAttention.takeStandby
  | timeLoad => exact h.onAttention.serveReading

theorem serveFeedReset {f : FeedId} (h : Releases s u) : Releases s (u.serveFeedReset f) := by
  unfold State.serveFeedReset
  refine .conclude (.act (fun _ e => (Engine.Releases.refl e).same rfl rfl)
    (.act (fun _ e => .ask (.ite (Engine.Releases.refl e).ask (.refl e))) (.act (fun x e => ?_) (.onFront rfl h.onReceiver))))
  exact .endTakes ((Engine.Releases.refl e).same rfl rfl)

theorem serveFeed {f : FeedId} {q : FeedRequest} (h : Releases s u) : Releases s (u.serveFeed f q) := by
  cases q with
  | load => exact h.serveReading
  | loadCommon => exact h.serveReading
  | arm => exact .ite h.serveReading h.conclude
  | stop =>
    simp only [State.serveFeed, State.serveStop]
    split
    · exact h.conclude
    · exact .conclude (.act (fun _ e => (Engine.Releases.refl e).stopTake) h)
  | halt =>
    simp only [State.serveFeed, State.serveHalt]
    split
    · exact h.conclude
    · exact .conclude (.act (fun _ e => (Engine.Releases.refl e).haltTake) h)
  | abort => exact .ite (.conclude (.act (fun _ e => (Engine.Releases.refl e).endTakes) h)) h.conclude
  | refill =>
    simp only [State.serveFeed, State.serveRefill]
    split
    · split
      · exact h.conclude
      · exact .act (fun _ e => Engine.Releases.foldl Engine.Releases.askReread _ (.refl e)) h
    · exact h.conclude
  | feedReset => exact h.serveFeedReset

theorem unitStep {v : State} (h : Releases s u) (hv : u.unitStep = some v) : Releases s v := by
  rcases State.unitStep_cases hv with hv | ⟨e, he, rfl⟩ | hv | ⟨e, he, rfl⟩
  · unfold State.serveStep at hv
    dsimp only at hv
    split at hv
    · cases hv
    · split at hv
      · cases hv
        exact h.serveGlobal
      · obtain ⟨p, -, rfl⟩ := Option.map_eq_some_iff.mp hv
        exact h.onAttention.serveFeed
  · exact ⟨h.dram, h.pool.blockStep he⟩
  · obtain ⟨f, -, rfl⟩ := Option.map_eq_some_iff.mp hv
    exact h.conclude
  · exact ⟨h.dram, h.pool.arbiterStep he⟩

/-- Settling leaves card DRAM and grants no slot. -/
theorem settle (h : Releases s u) : Releases s u.settle := State.settle_keeps (fun _ _ => unitStep) h

/-! ### Settings -/

theorem setLink {f : FeedId} {l : Link} (h : Releases s u) : Releases s (u.setLink f l) :=
  .ite h (.act (fun _ e => (Engine.Releases.refl e).ask) h.onReceiver)

theorem sync {f : FeedId} (h : Releases s u) : Releases s (u.sync f) :=
  .act (fun _ e => (Engine.Releases.refl e).syncConditions) h

theorem clearTimer {f : FeedId} (h : Releases s u) : Releases s (u.clearTimer f) :=
  .act (fun _ e => (Engine.Releases.refl e).ask) (.onFront rfl h)

theorem clearCommitted {f : FeedId} (h : Releases s u) : Releases s (u.clearCommitted f) :=
  .act (fun _ e => .ask ((Engine.Releases.refl e).same rfl rfl)) h

theorem applyEnabling {f : FeedId} {n : Settings} (h : Releases s u) : Releases s (u.applyEnabling f n) := by
  have hset : Releases s (u.takeSettings f n) :=
    .act (fun _ e => (Engine.Releases.refl e).skipDownTo 96) (.onFront rfl h.onReceiver)
  exact .ite hset.onReceiver.setLink.clearTimer.clearCommitted.sync hset

theorem applyPending {f : FeedId} (h : Releases s u) : Releases s (u.applyPending f) := by
  unfold State.applyPending
  split
  · exact h
  · dsimp only
    split
    · exact h.onReceiver.applyEnabling
    · exact h.onReceiver.onReceiver.setLink.clearTimer.sync

theorem handOver {f : FeedId} {b : Block} (h : Releases s u) : Releases s (u.handOver f b) :=
  .ite h.onReceiver h.onReceiver.applyPending

/-! ### Reads that end -/

theorem settingsRead {f : FeedId} {q : FeedRequest} {bytes : List Byte} (h : Releases s u) :
    Releases s (u.settingsRead f q bytes) := by
  unfold State.settingsRead
  dsimp only
  split
  · exact h.onAttention.conclude
  · exact .ite h.onAttention.conclude (.conclude (.handOver h.onAttention))

theorem timeValueRead {v : Count} (h : Releases s u) : Releases s (u.timeValueRead v) := by
  unfold State.timeValueRead
  dsimp only
  refine .onAttention (.onFront rfl ?_)
  split
  · exact h
  · exact h.globalAnswer

theorem failStart (h : Releases s u) : Releases s u.failStart := .onFlags h.onAttention

theorem enterRunning (h : Releases s u) : Releases s u.enterRunning := by
  have hslots : ∀ (x : Front) (e : Engine), e.Releases ((List.finRange 16).foldl (Engine.askSlot x) e) := fun x e =>
    .foldl (fun h => .foldl Engine.Releases.ask _ h) _ (.refl e)
  have howed : ∀ (b : Bool) (e : Engine), e.Releases (e.askOwed b) := fun b e =>
    .ite (.ask ((Engine.Releases.refl e).same rfl rfl)) ((Engine.Releases.refl e).same rfl rfl)
  unfold State.enterRunning
  exact .act (fun _ e => howed _ e) (.globalAnswer (.act hslots (.onFlags h.onAttention)))

theorem armFails {f : FeedId} {r : Result} (h : Releases s u) : Releases s (u.armFails f r) := h.onAttention.conclude

theorem readArrives {r : ReadRequest} {bytes : List Byte} (h : Releases s u) : Releases s (u.readArrives r bytes) := by
  unfold State.readArrives
  cases r with
  | pageHeader => exact .ite h.enterRunning h.failStart
  | timeValue => exact h.timeValueRead
  | settings f => exact h.settingsRead
  | common f => exact h.settingsRead
  | stagedAddress f => exact .ite h.armFails (.ite h.armFails h.serveReading)
  | sheetHeader f a =>
    unfold State.armHeaderRead
    dsimp only
    split
    · exact h.armFails
    · exact .ite h.armFails h.serveReading
  | armEntry f a n =>
    dsimp only
    split
    · exact .ite (.conclude (.onAttention (.act (fun _ e => (Engine.Releases.refl e).placeTake) h)))
        (.ite h.serveReading h.armFails)
    · exact h
  | posted f t a refill => exact .act (fun _ e => (Engine.Releases.refl e).updTake.syncConditions) h
  | entry use t a n => exact .act (fun _ e => (Engine.Releases.refl e).entryRead) h

theorem readFails {r : ReadRequest} (h : Releases s u) : Releases s (u.readFails r) := by
  unfold State.readFails
  cases r with
  | pageHeader => exact h.failStart
  | timeValue => exact h.onAttention.globalAnswer
  | settings f | common f => exact h.onAttention.conclude
  | stagedAddress f | sheetHeader f a | armEntry f a n => exact h.armFails
  | posted f t a refill => exact h
  | entry use t a n => exact .act (fun _ e => (Engine.Releases.refl e).entryFailed) h

theorem endRead (h : Releases s u) : Releases s u.endRead := .act (fun _ e => (Engine.Releases.refl e).same rfl rfl) h

theorem failOutstanding {o : Outstanding} (h : Releases s u) : Releases s (u.failOutstanding o) :=
  .ite h.endRead.onFlags.readFails h.endRead.onFlags

theorem completeOutstanding {o : Outstanding} {r : Reply} (h : Releases s u) :
    Releases s (u.completeOutstanding o r) := by
  cases r with
  | error => exact h.failOutstanding
  | data bytes =>
    have hfree := ite (p := bytes.length < (o.request.span u.front.pageBase).2) (u := u.useFree) (h.onFront rfl) h
    exact .ite hfree.endRead.readArrives hfree.endRead

/-! ### The clock -/

theorem takeLoadWait (h : Releases s u) : Releases s u.takeLoadWait := .ite (.globalAnswer (.onFront rfl h)) h

theorem takeReadTimeout (h : Releases s u) : Releases s u.takeReadTimeout := by
  unfold State.takeReadTimeout
  split
  · exact .ite h.failOutstanding h
  · exact h

theorem advance (h : Releases s u) : Releases s u.advance :=
  .act (fun _ e => (Engine.Releases.refl e).same rfl rfl) (.onFront rfl h)

theorem setMask {word : BitVec 32} (h : Releases s u) : Releases s (u.setMask word) := by
  unfold State.setMask
  exact .act (fun _ e => (Engine.Releases.refl e).oweMessage.settleOwed) (.onFront rfl h)

/-- The end of a burst (R64, R142). -/
theorem burstSent {b : Burst} (h : Releases s u) : Releases s (u.burstSent b) :=
  .act (fun _ e => (Engine.Releases.refl e).burstDone) (.onFront rfl h)

end State.Releases

end Sys2Proof.Machine
end


section
/-! Every step keeps card DRAM in its canonical form and the held lists in agreement with the slots (R52 to R55, R63, R64):
on the lanes, lines are written whole and a frame is granted a FREE slot; every other act leaves card DRAM and grants none. -/

namespace Sys2Proof.Machine

/-! ## A frame is granted a slot (R55, R80) -/

namespace Engine

section
variable {x : Front} {f : FeedId} {n : Nat} {a : Admission} {e : Engine}

theorem slots_of_grantable {i : SlotId} (h : e.grantable x f = some i) : e.slots[i] = none := by
  unfold Engine.grantable at h
  split at h
  · have hfree := List.find?_some (p := fun i : SlotId => e.slots[i].isNone) h
    exact Option.isNone_iff_eq_none.mp hfree
  · cases h

theorem Releases.stagedToLive {u : Engine} {g : Take} (h : u.Releases e) : u.Releases (e.stagedToLive f g) := h.updPlaces

/-- The slot a frame is granted was FREE. -/
theorem slotted_poolGood {t : Take} {i : SlotId} (hi : e.slots[i] = none) (h : e.poolGood) :
    (e.slotted x f t a i).poolGood := by
  obtain ⟨hslots, hheld, -⟩ := slotted_pool x f t a i e
  have hrest : (e.grantSlot f t.id t.position i).Releases (e.slotted x f t a i) := .same (.refl _) hslots hheld
  exact hrest.poolGood (grantSlot_poolGood h f t.id t.position hi)

theorem belong_poolGood (h : e.poolGood) : (e.belong x f n a).1.poolGood := by
  unfold Engine.belong Engine.slotFrame
  cases ht : e.take? n with
  | none => exact h
  | some t =>
    obtain rfl := id_of_take? ht
    dsimp only
    by_cases hpos : positionLimit ≤ t.position
    · rw [if_pos hpos]
      exact h
    · rw [if_neg hpos]
      cases hi : e.grantable x f with
      | none => exact h
      | some i =>
        have hslotted : (e.slotted x f t a i).poolGood := slotted_poolGood (slots_of_grantable hi) h
        have hafter : (e.slotted x f t a i).Releases ((e.slotted x f t a i).afterGrant f t a) :=
          .ite (.ite (Releases.refl _).deferStop (Releases.refl _).closeLive.promoteAfterClose) (.refl _)
        exact hafter.poolGood hslotted

theorem beginOn_poolGood (h : e.poolGood) : (e.beginOn x f n a).1.poolGood :=
  belong_poolGood ((Releases.refl e).beginTake.poolGood h)

theorem splitOn_poolGood {t g : Take} {reason : CloseReason} (h : e.poolGood) :
    (e.splitOn x f t g reason a).1.poolGood := by
  unfold Engine.splitOn
  split
  · exact belong_poolGood ((Releases.refl e).deferStop.poolGood h)
  · exact beginOn_poolGood ((Releases.refl e).closeLive.stagedToLive.poolGood h)

theorem stopOn_poolGood {t : Take} {reason : CloseReason} (h : e.poolGood) : (e.stopOn x f t reason a).1.poolGood := by
  have hclosed := (Releases.refl e).closeLive (f := f) (t := t) (reason := reason) (c := a.capture)
  unfold Engine.stopOn
  by_cases hfull : e.closingFull f = true
  · rw [if_pos hfull]
    exact belong_poolGood ((Releases.refl e).deferStop.poolGood h)
  · rw [if_neg hfull]
    dsimp only
    cases e.stagedTake f with
    | none =>
      dsimp only
      exact hclosed.poolGood h
    | some g =>
      dsimp only
      split
      · exact beginOn_poolGood (hclosed.stagedToLive.poolGood h)
      · dsimp only
        exact hclosed.promoteAfterClose.poolGood h

theorem admitRecording_poolGood {t : Take} (h : e.poolGood) : (e.admitRecording x f t a).1.poolGood := by
  unfold Engine.admitRecording
  split
  · exact belong_poolGood h
  · dsimp only
    split
    · exact splitOn_poolGood h
    · split
      · exact stopOn_poolGood h
      · exact belong_poolGood h

/-- An admitted frame keeps the pool good. -/
theorem takeFrame_poolGood (h : e.poolGood) : (e.takeFrame x f a).1.poolGood := by
  have hasked := (Releases.foldl (g := fun e t => e.askReread false t) Releases.askReread (e.standingTakes f)
    (.refl e)).poolGood h
  unfold Engine.takeFrame
  dsimp only
  split
  · exact hasked
  · split
    · unfold Engine.admitArmed
      split
      · exact beginOn_poolGood hasked
      · exact hasked
    · exact admitRecording_poolGood hasked

end

end Engine

/-! ## The Feed Receiver -/

/-- From `s` to `u`, a canonical card DRAM has stayed canonical, and a good pool good. -/
structure State.Keeps (s u : State) : Prop where
  dram : s.front.dram.wf → u.front.dram.wf
  pool : s.eng.poolGood → u.eng.poolGood

theorem Dram.conceal_wf {m : Dram} (h : m.wf) (i : SlotId) (w n : Nat) (received : List Nat) :
    (m.conceal i w n received).wf := by
  unfold Dram.conceal
  induction missingLines n received generalizing m with
  | nil => exact h
  | cons y ys ih => exact ih (Dram.writeRange_wf h ..)

theorem State.Releases.keeps {s u : State} (h : s.Releases u) : s.Keeps u := ⟨fun hs => h.dram ▸ hs, h.pool.poolGood⟩

namespace State.Keeps

variable {s u : State}

theorem refl (s : State) : Keeps s s := ⟨id, id⟩

theorem trans {v : State} (h : Keeps s u) (k : Keeps u v) : Keeps s v := ⟨k.dram ∘ h.dram, k.pool ∘ h.pool⟩

/-- An operation that leaves card DRAM and grants no slot. -/
theorem andThen {v : State} (k : u.Releases v) (h : Keeps s u) : Keeps s v := h.trans k.keeps

theorem ite {p : Prop} [Decidable p] {v : State} (hu : Keeps s u) (hv : Keeps s v) : Keeps s (if p then u else v) := by
  split
  · exact hu
  · exact hv

theorem foldl {α : Type} {g : State → α → State} (hg : ∀ {v b}, Keeps s v → Keeps s (g v b)) (l : List α)
    (h : Keeps s u) : Keeps s (l.foldl g u) := by
  induction l generalizing u with
  | nil => exact h
  | cons b l ih => exact ih (hg h)

theorem onReceiver {f : FeedId} {g : Receiver → Receiver} (h : Keeps s u) : Keeps s (u.onReceiver f g) :=
  h.andThen (Releases.refl u).onReceiver

theorem setOpened {f : FeedId} {o : Option OpenFrame} (h : Keeps s u) :
    Keeps s (u.act fun _ e => { e with opened := upd e.opened f fun _ => o }) :=
  h.andThen (.act (fun _ e => (Engine.Releases.refl e).same rfl rfl) (.refl u))

theorem storeLine {f : FeedId} {o : OpenFrame} {y : Nat} {pairs : List PixelPair} (h : Keeps s u) :
    Keeps s (u.storeLine f o y pairs) :=
  .setOpened ⟨fun hs => Dram.writeRange_wf (h.dram hs) .., h.pool⟩

theorem closeFrame {f : FeedId} (h : Keeps s u) : Keeps s (u.closeFrame f) := by
  unfold State.closeFrame
  split
  · exact h
  · split
    · exact h.andThen (.act (fun _ e => (Engine.Releases.refl e).frameEmpty) (Releases.refl u).onReceiver)
    · exact ⟨fun hs => Dram.conceal_wf (h.dram hs) .., fun hs => (Engine.Releases.refl _).frameReady.poolGood (h.pool hs)⟩

theorem endLine {f : FeedId} (h : Keeps s u) : Keeps s (u.endLine f) := by
  have hcut := h.onReceiver (f := f) (g := fun r => { r with line := .empty })
  unfold State.endLine
  dsimp only
  split
  · unfold State.endMarked
    split
    · unfold State.closeComplete
      split
      · exact hcut.storeLine
      · exact .ite hcut.storeLine.closeFrame hcut.storeLine
    · exact hcut
  · unfold State.endCounted
    split
    · exact hcut
    · dsimp only
      split
      · exact hcut.setOpened
      · split
        · exact .ite hcut.setOpened.closeFrame hcut.setOpened
        · exact .ite hcut.storeLine.closeFrame hcut.storeLine

theorem breakHeader {f : FeedId} (h : Keeps s u) : Keeps s (u.breakHeader f) := h.onReceiver

theorem cutHeader {f : FeedId} (h : Keeps s u) : Keeps s (u.cutHeader f) := .ite h.breakHeader h

theorem symbol {f : FeedId} {taken : State → State} (ht : ∀ {v}, Keeps s v → Keeps s (taken v)) (h : Keeps s u) :
    Keeps s (u.symbol f taken) := .ite (ht h.cutHeader) h

theorem leaveLocked {f : FeedId} {l : Link} {cause : LossCause} (h : Keeps s u) : Keeps s (u.leaveLocked f l cause) := by
  have hclosed := (h.andThen ((Releases.refl u).setLink (f := f) (l := l))).closeFrame (f := f)
  refine andThen (Releases.sync ?_).applyPending hclosed
  unfold State.linkLoss
  split
  · exact .refl _
  · exact .act (fun _ e => (Engine.Releases.refl e).queueEvent) (.refl _)

theorem takeDeadline {f : FeedId} (h : Keeps s u) : Keeps s (u.takeDeadline f) := by
  have hexpired := h.andThen (.onFront (g := fun x => x.updTimer f fun t => { t with deadline := none }) rfl (.refl u))
  refine .ite ?_ h
  unfold State.expireDeadline
  dsimp only
  split
  · exact hexpired
  · exact hexpired.onReceiver
  · exact hexpired.onReceiver.leaveLocked

theorem admitFrame {f : FeedId} {p : Placed} (h : Keeps s u) : Keeps s (u.admitFrame f p) := by
  unfold State.admitFrame
  dsimp only
  have htaken : ∀ a, Keeps s { u with eng := (u.eng.takeFrame u.front f a).1 } := fun a =>
    ⟨h.dram, fun hs => Engine.takeFrame_poolGood (h.pool hs)⟩
  split
  · exact htaken _
  · exact (htaken _).onReceiver
  · exact (htaken _).onReceiver

theorem judgeHeader {f : FeedId} {fields : HeaderFields} {p : Placed} (h : Keeps s u) :
    Keeps s (u.judgeHeader f fields p) := by
  unfold State.judgeHeader
  dsimp only
  refine .ite ?_ h.onReceiver
  split
  · exact h
  · exact h.admitFrame
  · exact .ite (h.andThen (Releases.refl u).onReceiver.setLink.sync).admitFrame h.onReceiver

theorem acceptHeader {f : FeedId} {fields : HeaderFields} (h : Keeps s u) : Keeps s (u.acceptHeader f fields) := by
  have hpending := h.onReceiver (f := f) (g := fun r => { r with inHeader := false }) |>.andThen
    ((Releases.refl _).applyPending (f := f))
  have hcapture : ∀ v : State, v.Releases (v.capture f) := fun v =>
    have htimed : v.Releases (v.onFront fun x => x.updTimer f (FeedTimer.capture (x.settings f) x.refCount)) :=
      .onFront rfl (.refl v)
    .sync (.ite htimed (.act (fun _ e => (Engine.Releases.refl e).ask) htimed))
  unfold State.acceptHeader
  dsimp only
  exact .ite (hpending.andThen (hcapture _)).onReceiver.judgeHeader hpending

end State.Keeps

/-! ## Every command -/

theorem State.reset_keeps {s u : State} (hd : u.front.dram = s.front.dram) (he : u.eng = s.eng.atReset) : s.Keeps u :=
  ⟨fun hs => hd ▸ hs, fun _ => he ▸ Engine.reset_poolGood⟩

/-- Every command keeps card DRAM canonical and the pool good. -/
theorem exec_keeps {c : Instr} {s t : State} (ht : exec c s = .next t) : s.Keeps t := by
  have hset : ∀ {u : State}, s.Keeps u → Host.Outcome.next u.settle = (.next t : Host.Outcome State Fault Refusal) →
      s.Keeps t := by
    intro u hu hut
    cases hut
    exact hu.andThen (State.Releases.refl u).settle
  have hrel : ∀ {u : State}, s.Releases u → Host.Outcome.next u.settle = (.next t : Host.Outcome State Fault Refusal) →
      s.Keeps t := fun hu => hset hu.keeps
  have h := State.Releases.refl s
  have k := State.Keeps.refl s
  cases c with
  | signalLoss f =>
    have ht : execSignalLoss f s = .next t := ht
    unfold execSignalLoss at ht
    dsimp only at ht
    split at ht
    · have hcut := k.onReceiver (f := f) (g := fun r => { r with signal := false }) |>.cutHeader (f := f)
      exact hset (.ite hcut.onReceiver.leaveLocked (hcut.onReceiver.andThen (State.Releases.refl _).setLink)) ht
    · exact hrel h.onReceiver ht
  | signalReturn f =>
    have ht : execSignalReturn f s = .next t := ht
    unfold execSignalReturn at ht
    dsimp only at ht
    split at ht
    · exact hrel h.onReceiver.onReceiver.setLink ht
    · exact hrel h.onReceiver ht
  | frameHeaderStart f => exact hset (.symbol (fun hv => hv.onReceiver.closeFrame) k) ht
  | frameHeader f chars =>
    have ht : execFrameHeader f chars s = .next t := ht
    unfold execFrameHeader at ht
    dsimp only at ht
    split at ht
    · exact hset (.ite k.acceptHeader k.breakHeader) ht
    · exact hset k ht
  | lineMarker f chars => exact hset (.symbol (fun hv => hv.onReceiver) k) ht
  | sampleData f chars =>
    refine hset (.symbol (fun hv => ?_) k) ht
    unfold State.takeSample
    split
    · exact hv
    · exact hv.onReceiver
  | lineEnd f => exact hset (.symbol (fun hv => hv.endLine) k) ht
  | metadataPacket f chars => exact hset (.symbol (fun hv => hv.onReceiver) k) ht
  | lossDeadlineExpiry f => exact hset k.takeDeadline ht
  | refPulseEdge =>
    have ht : execRefPulseEdge s = .next t := ht
    unfold execRefPulseEdge at ht
    split at ht
    · exact hrel (.globalAnswer (.onFront rfl h)) ht
    · exact hrel h ht
  | timeLoadWaitExpiry => exact hrel h.takeLoadWait ht
  | readCompletion a =>
    have ht : execReadCompletion a s = .next t := ht
    unfold execReadCompletion at ht
    split at ht
    · exact hrel h ht
    · split at ht
      · exact hrel h.completeOutstanding ht
      · exact hrel h ht
  | readTimeout =>
    have ht : execReadTimeout s = .next t := ht
    unfold execReadTimeout at ht
    split at ht
    · split at ht
      · exact hrel h.failOutstanding ht
      · exact hrel h ht
    · exact hrel h ht
  | linkBurstComplete =>
    have ht : execLinkBurstComplete s = .next t := ht
    unfold execLinkBurstComplete at ht
    split at ht
    · exact hrel h.burstSent ht
    · exact hrel h ht
  | browseBandComplete => exact hrel (.act (fun _ e => (Engine.Releases.refl e).bandComplete) h) ht
  | load | loadCommon | arm | stop | halt | abort | refill | feedReset => exact hrel h.attentionFeed ht
  | start | standby | timeLoad => exact hrel h.attentionGlobal ht
  | attentionIgnored word => exact hrel h.attentionWrite ht
  | noticeWrite word =>
    refine hrel (.act (fun x e => ?_) h) ht
    exact .settleOwed (.ite ((Engine.Releases.foldl Engine.Releases.setCauses _ (.refl e)).same rfl rfl)
      (Engine.Releases.foldl Engine.Releases.setCauses _ (.refl e)))
  | noticeMaskWrite word => exact hrel h.setMask ht
  | partStatusWrite word => exact hrel h.onFlags ht
  | pageBaseWrite high word =>
    have ht : execPageBaseWrite high word s = .next t := ht
    unfold execPageBaseWrite at ht
    split at ht
    · exact hrel (.onFront rfl h) ht
    · exact hrel h ht
  | refCountLowRead => exact hrel (.onFront rfl h) ht
  | ignoredRegisterWrite offset word => exact hrel h ht
  | powerOnReset => cases ht; exact State.reset_keeps rfl rfl
  | hostLinkReset => cases ht; exact State.reset_keeps rfl rfl

/-- The idle tick keeps card DRAM canonical and the pool good. -/
theorem State.tick_keeps (s : State) : s.Keeps s.tick := by
  have hexpired := State.Keeps.foldl (g := State.takeDeadline) State.Keeps.takeDeadline (List.finRange 16) (.refl s)
  exact hexpired.andThen (State.Releases.refl _).takeLoadWait.takeReadTimeout.settle.advance

theorem step_keeps {s t : State} (ht : step s = .next t) : s.Keeps t := by
  cases hp : s.pending with
  | nil =>
    rw [step_of_nil hp] at ht
    exact Host.Outcome.next.inj ht ▸ s.tick_keeps
  | cons c rest =>
    rw [step_of_cons hp] at ht
    obtain ⟨hdram, hpool⟩ := exec_keeps ht
    exact ⟨hdram, hpool⟩

/-- Settles O58: card DRAM changes only where a line is stored or concealed, and every such write keeps its form. -/
theorem dramStaysCanonical : Obligations.DramStaysCanonical := fun _ _ h ht => (step_keeps ht).dram h

/-- Settles O60: a frame is granted a FREE slot, and every other act leaves each slot its feed or frees it in its held list. -/
theorem poolStaysGood : Obligations.PoolStaysGood := fun _ _ h ht => (step_keeps ht).pool h

end Sys2Proof.Machine
end


section
/-! The end of a burst (R64, R142, R144). -/

namespace Sys2Proof.Machine

namespace Engine

theorem burstDone_of_no_slot {b : Burst} {e : Engine} (h : ∀ i, b.slot = some i → e.slots[i] = none) :
    e.burstDone b = { e with arbiter := { e.arbiter with busy := none } } := by
  unfold Engine.burstDone
  cases hb : b.slot with
  | none => rfl
  | some i => simp [h i hb]

theorem burstDone_of_draining {b : Burst} {i : SlotId} {slot : Slot} {e : Engine} (hb : b.slot = some i)
    (hi : e.slots[i] = some slot) (hdrain : slot.state = .draining) :
    e.burstDone b = ({ e with arbiter := { e.arbiter with busy := none } } : Engine).freeSlot i := by
  unfold Engine.burstDone
  simp only [hb, hi, Option.any_some, hdrain, beq_self_eq_true, if_true]

theorem burstDone_of_not_draining {b : Burst} {i : SlotId} {slot : Slot} {e : Engine} (hb : b.slot = some i)
    (hi : e.slots[i] = some slot) (hstays : slot.state ≠ .draining) :
    e.burstDone b = { e with arbiter := { e.arbiter with busy := none } } := by
  unfold Engine.burstDone
  simp only [hb, hi, Option.any_some, beq_iff_eq, hstays, if_false]

/-- The slot that drained for the burst is gone. -/
theorem burstDone_gone {b : Burst} {i : SlotId} {slot : Slot} {e : Engine} (hb : b.slot = some i)
    (hi : e.slots[i] = some slot) (hdrain : slot.state = .draining) : (e.burstDone b).Gone i := by
  rw [burstDone_of_draining hb hi hdrain]
  exact Releases.freeSlot_gone ..

end Engine

theorem exec_linkBurstComplete_of_busy {b : Burst} {s : State} (h : s.eng.arbiter.busy = some b) :
    exec .linkBurstComplete s = .next (s.burstSent b).settle := by
  show execLinkBurstComplete s = _
  unfold execLinkBurstComplete
  rw [h]

/-- Settles O35: the acts behind the burst's end deliver nothing more and take no slot out of FREE. -/
theorem linkBurstCompleteResult : Obligations.LinkBurstCompleteResult := by
  refine ⟨fun b s hbusy => ⟨_, exec_linkBurstComplete_of_busy hbusy, ?_⟩, fun b e => Engine.burstDone_of_no_slot,
    fun b i slot e hb hi => ?_⟩
  · have hkept := State.settle_kept (s.burstSent b)
    have hpool := ((State.Releases.refl (s.burstSent b)).settle).pool
    refine ⟨?_, hkept.dram, hkept.refCount, hkept.flags, fun i slot hb hi hdrain => ?_, fun hrest => ?_⟩
    · rw [hkept.delivered]
      show s.front.delivered ++ b.payload.delivery = _
      cases b.payload <;> rfl
    · exact hpool.gone (Engine.burstDone_gone hb hi hdrain)
    · rw [State.settle_of_front hrest (s' := s.burstSent b) rfl rfl]
      rfl
  · by_cases hdrain : slot.state = .draining
    · obtain ⟨hfree, hout⟩ := Engine.burstDone_gone hb hi hdrain
      refine ⟨?_, fun j hj => ?_, fun _ => ⟨hfree, hout⟩, fun hstays => absurd hdrain hstays⟩
      · rw [Engine.burstDone_of_draining hb hi hdrain]
        rfl
      · rw [Engine.burstDone_of_draining hb hi hdrain, Engine.freeSlot_slots, upd_other _ hj]
    · rw [Engine.burstDone_of_not_draining hb hi hdrain]
      exact ⟨rfl, fun _ _ => rfl, fun h => absurd h hdrain, fun _ => ⟨hi, rfl⟩⟩

end Sys2Proof.Machine
end


section
/-! The grant of a FRAME record (R61, R99, R116, R117). -/

namespace Sys2Proof.Machine

/-- The head record leaves the queue for index space. -/
def Take.passHead (rest : List Record) (k : Take) : Take := { k with queue := rest, indexWritten := k.indexWritten + 1 }

/-- A written frame with browse outcome `outcome` is counted in its take (R116). -/
def Take.countFrame (r : FrameRecord) (outcome : Option BrowseOutcome) (k : Take) : Take :=
  { k with
    committed := k.committed + 1
    browseWritten := k.browseWritten + (if outcome = some .written then 1 else 0)
    browseSkipped := k.browseSkipped +
      (if outcome = some .skippedLate ∨ outcome = some .skippedNoRoom ∨ outcome = some .skippedMoved then 1 else 0)
    lastTc := some r.tc
    firstTc := if r.position = 0 then some r.tc else k.firstTc }

namespace Engine

/-- A written frame joins its feed's written frames, under the feed's next committed count (R117). -/
def publish (t : Take) (r : FrameRecord) (e : Engine) : Engine :=
  let count := e.board[t.feed].committed + 1
  { e with
    board := upd e.board t.feed fun _ => ⟨count, r.tc⟩
    written := upd e.written t.feed fun l => l ++ [(⟨r.slot, t.id, count, false, false⟩ : WrittenFrame)] }

theorem publish_sameWork (t : Take) (r : FrameRecord) (e : Engine) : e.SameWork (e.publish t r) :=
  ⟨rfl, rfl, rfl, rfl, rfl, rfl, rfl, rfl⟩

/-- The grant counts the frame, publishes it, and asks the progress block and the committed count (R116, R117). -/
theorem frameWritten_eq (t : Take) (r : FrameRecord) (e : Engine) : e.frameWritten t r =
    (((e.updTake t.id (Take.countFrame r (r.settled.map (·.outcome)))).publish t r).ask (.progress t.id t.sheet)).ask
      (.committed t.feed) := by
  simp only [frameWritten, publish, beq_iff_eq, Bool.or_eq_true, or_assoc]
  rfl

theorem grantRecord_of_frame {t : Take} {q : Record} {r : FrameRecord} {rest : List Record} {e : Engine}
    (ht : e.take? t.id = some t) (hq : t.queue = q :: rest) (hb : q.body = .frame r) : e.grantRecord t.id =
      Engine.frameWritten t r
        (((e.setBusy .indexWriter (.write (t.index.addr (32 * t.indexWritten)) (recordBytes t r.position (.frame r)))
          none).setInHand none).updTake t.id (Take.passHead rest)) := by
  simp only [grantRecord, ht, hq, hb]
  rfl

theorem mem_ask_self (e : Engine) (w : WriteRequest) : w ∈ (e.ask w).port.writes := by
  unfold Engine.ask
  split
  · rename_i hmerged
    exact List.contains_iff_mem.mp (Bool.and_eq_true_iff.mp hmerged).2
  · exact List.mem_append_right _ (List.mem_singleton_self w)

end Engine

/-- Settles O50: the record leaves the queue for the link, and its frame is counted, published and asked. -/
theorem frameRecordGrant : Obligations.FrameRecordGrant := by
  intro t q r rest e ht hq hb
  dsimp only
  rw [Engine.grantRecord_of_frame ht hq hb, Engine.frameWritten_eq]
  refine ⟨?_, ?_, ?_, ?_, ?_, ?_, ?_, ?_, ?_⟩
  · simp only [Engine.ask_arbiter]
    rfl
  · simp only [Engine.ask_writer]
    rfl
  · have hpassed := Engine.take?_updTake_self ((e.setBusy .indexWriter (.write (t.index.addr (32 * t.indexWritten))
      (recordBytes t r.position (.frame r))) none).setInHand none) (Take.passHead rest) (fun _ => rfl) ht
    rw [(Engine.ask_sameWork ..).take?, (Engine.ask_sameWork ..).take?, (Engine.publish_sameWork ..).take?,
      Engine.take?_updTake_self _ (Take.countFrame r (r.settled.map (·.outcome))) (fun _ => rfl) hpassed]
    rfl
  · simp only [Engine.ask_board]
    exact upd_same ..
  · simp only [Engine.ask_written]
    exact upd_same ..
  · exact (Engine.Grows.refl _).ask.mem (Engine.mem_ask_self ..)
  · exact Engine.mem_ask_self ..
  · simp only [Engine.ask_slots]
    rfl
  · simp only [Engine.ask_held]
    rfl

end Sys2Proof.Machine
end


section
/-! The grant of an essence burst (R60, R140, R143). -/

namespace Sys2Proof.Machine

namespace Engine

/-- What an essence burst's grant makes of the link (R140, R143). -/
def essenceBurst (x : Front) (i : SlotId) (next first len : Nat) (t : Take) (e : Engine) : Engine :=
  { e with arbiter :=
      ⟨some ⟨.mover, .write (t.essence.addr first) (x.dram.readRange (i.val * slotBytes + next) len), some i⟩, .essence⟩ }

theorem burstLength_of_frame (position next mfb : Nat) :
    burstLength (position * mfb + next) ((position + 1) * mfb) =
      min (4096 - (position * mfb + next) % 4096) (mfb - next) := by
  unfold burstLength
  rw [Nat.succ_mul, Nat.add_sub_add_left]

theorem grantEssence_eq {x : Front} {i : SlotId} {next : Nat} {slot : Slot} {t : Take} {e : Engine}
    (hi : e.slots[i] = some slot) (ht : e.take? slot.take = some t) :
    let first := slot.position * t.mfb + next
    let len := min (4096 - first % 4096) (t.mfb - next)
    e.grantEssence x i next =
      if t.mfb ≤ next + len then
        (((e.essenceBurst x i next first len t).updSlot i fun s => { s with essence := .issued }).setMover .idle).trySettle i
      else (e.essenceBurst x i next first len t).setMover (.moving i (next + len)) := by
  dsimp only
  rw [← burstLength_of_frame]
  unfold grantEssence
  simp only [hi, ht, Option.bind_some, Option.map_some]
  rfl

/-- The attempt to settle a frame leaves the other slots alone. -/
theorem trySettle_other {i j : SlotId} (hj : j ≠ i) (e : Engine) : (e.trySettle i).slots[j] = e.slots[j] := by
  unfold trySettle
  split
  · rfl
  · split
    · rfl
    · rw [updTake_slots, updSlot_slots, upd_other _ hj]

theorem trySettle_of_none {i : SlotId} {s : Slot} {e : Engine} (hi : e.slots[i] = some s) (hs : s.settlement = none) :
    e.trySettle i = e := by
  simp only [trySettle, hi, hs]

theorem trySettle_of_some {i : SlotId} {s : Slot} {st : Settlement} {e : Engine} (hi : e.slots[i] = some s)
    (hs : s.settlement = some st) : (e.trySettle i).slots[i] = some { s with state := .settled } := by
  simp only [trySettle, hi, hs, updTake_slots, updSlot_slots, upd_same, Option.map_some]

end Engine

theorem Slot.settlement_of_undecided {s : Slot} (h : ∀ o, s.browse ≠ .decided o) : s.settlement = none := by
  unfold Slot.settlement
  split
  · rename_i hb _
    exact absurd hb (h _)
  · rfl

/-- Settles O51. -/
theorem essenceBurstGrant : Obligations.EssenceBurstGrant := by
  intro x i next slot t e hi ht hnext
  have heq := Engine.grantEssence_eq (x := x) (next := next) hi ht
  dsimp only at heq ⊢
  rw [heq]
  have hblock := Nat.mod_lt (slot.position * t.mfb + next) (y := 4096) (by decide)
  generalize slot.position * t.mfb + next = first at hblock ⊢
  generalize hlen : min (4096 - first % 4096) (t.mfb - next) = len
  have hpos : 0 < len := by omega
  have hissued : (((e.essenceBurst x i next first len t).updSlot i fun s => { s with essence := .issued }).setMover
      .idle).slots[i] = some { slot with essence := .issued } := by
    simp only [Engine.setMover_slots, Engine.updSlot_slots, upd_same]
    exact congrArg (Option.map _) hi
  by_cases hend : t.mfb ≤ next + len
  · rw [if_pos hend]
    refine ⟨hpos, ?_, fun j hj => ?_, ?_, fun hgoes => absurd hend (Nat.not_le.mpr hgoes), fun _ => ⟨?_, ?_, ?_⟩⟩
    · rw [Engine.trySettle_eq]
      rfl
    · rw [Engine.trySettle_other hj, Engine.setMover_slots, Engine.updSlot_slots, upd_other _ hj]
      rfl
    · rw [Engine.trySettle_eq]
      rfl
    · rw [Engine.trySettle_eq]
      rfl
    · rintro ⟨o, p, hready, hbrowse, hplace⟩
      refine Engine.trySettle_of_some hissued (st := ⟨p.1, p.2, o, slot.padded, slot.concealed, slot.concealedCount⟩) ?_
      simp only [Slot.settlement, hready, hbrowse, hplace]
    · intro hbrowse
      rw [Engine.trySettle_of_none hissued (Slot.settlement_of_undecided hbrowse)]
      exact ⟨hissued, rfl⟩
  · rw [if_neg hend]
    exact ⟨hpos, rfl, fun _ _ => rfl, rfl, fun _ => ⟨rfl, rfl, rfl⟩, fun hstop => absurd hstop.ge hend⟩

end Sys2Proof.Machine
end


section
/-! ABORT of several takes whose context numbers are not distinct (R72, R83, R112, R113): every context of an ended take's
number gets an END, so that the next END can find the 488 places taken and remove an event record of a take that has yet to
end, counted where it did not stand. -/

namespace Sys2Proof.Machine

namespace NumbersShared

/-- A take of feed 0 with one page of index space. -/
def take (id : Nat) (state : TakeState) (queue : List Record) : Take :=
  { Take.fresh id 0 (BitVec.ofNat 64 (2048 * (id + 1))) ⟨0, false, .immediate, 0, .onRequest, 0, 0, 0, 1⟩ 0 (0x100000, 1)
      [] with state, queue }

/-- Three contexts have number 1, that of the Live take, and two have number 3, that of the second Closing take. The latter's
second context holds 485 event records, the feed's only ones. The blocks work for other feeds. -/
def state : State where
  pending := []
  front := { Front.reset with
    receivers := upd Front.reset.receivers 0 fun r => { r with enabled := true }
    attention := { Attention.reset with part := .running } }
  eng := { Engine.reset with
    takes := [take 1 .recording [], take 1 .recording [], take 1 .recording [], take 2 .closing [], take 3 .closing [],
      take 3 .closing ((List.range 485).map fun n => ⟨n, .linkBack 0⟩)]
    nextId := 4
    nextSeq := 485
    places := upd Engine.reset.places 0 fun p => { p with live := some 1, closing := [2, 3] }
    mover := ⟨.moving 95 0, none⟩
    reducer := { Engine.reset.reducer with check := some (95, .waiting) }
    writer := ⟨some (9, .asking), none⟩
    arbiter := ⟨some ⟨.recordPort, .read 0 16, none⟩, .none⟩ }

/-- The part once ABORT of feed 0 is served. -/
def result : State := (state.attentionFeed .abort (maskOf 0)).settle

theorem exec_abort : exec (.abort (maskOf 0)) state = .next result := rfl

theorem slots_free (i : SlotId) : state.eng.slots[i] = none := resetStateHolds.2.2.1 i

/-- The take that `take?` finds under number 3 had no record, and counts one as discarded. -/
theorem result_discarded : (result.eng.take? 3).map (·.eventsDiscarded) = some 1 := by decide +kernel

end NumbersShared

open NumbersShared in
/-- Refutes O45: the statement asks of the takes' contexts no distinct numbers, as every run gives them; without those, one
take's END can have an event counted in another that never held it. -/
theorem not_endTakeEffect : ¬ Obligations.EndTakeEffect := by
  intro h
  have habort := h.2 0 .abort (.abort (maskOf 0)) .aborted state (.inl ⟨rfl, rfl, rfl, rfl⟩) rfl (by decide) (by decide)
    (by decide +kernel) (.inr fun i slot hi => absurd ((slots_free i).symm.trans hi) nofun)
    (.inl fun n stage hn => by cases hn; decide +kernel) (by decide) (.inr (by decide +kernel))
  obtain ⟨t, hexec, -, -, -, -, hended, -⟩ := habort
  obtain ⟨-, -, -, -, seq, hk⟩ := hended (take 3 .closing []) (by decide +kernel)
  have ht : result = t := Host.Outcome.next.inj (exec_abort.symm.trans hexec)
  have hcount := result_discarded
  rw [ht, show (3 : Nat) = (take 3 .closing []).id from rfl, hk] at hcount
  simp [take, Take.fresh] at hcount

end Sys2Proof.Machine
end


section
/-! Which extent holds a byte of a space (R69). -/

namespace Sys2Proof.Machine

theorem locate_eq_some {l : List Extent} {b off : Nat} {x : Extent} (h : locate l b = some (x, off)) :
    ∃ before behind, l = before ++ x :: behind ∧ b = (before.map Extent.bytes).sum + off ∧ off < x.bytes := by
  induction l generalizing b with
  | nil => cases h
  | cons y ys ih =>
    rw [locate] at h
    split at h
    · rename_i hb
      cases h
      exact ⟨[], ys, rfl, (Nat.zero_add _).symm, hb⟩
    · rename_i hb
      obtain ⟨before, behind, rfl, hsum, hoff⟩ := ih h
      refine ⟨y :: before, behind, rfl, ?_, hoff⟩
      rw [List.map_cons, List.sum_cons]
      omega

theorem locate_ne_none_iff {l : List Extent} {b : Nat} : locate l b ≠ none ↔ b < (l.map Extent.bytes).sum := by
  induction l generalizing b with
  | nil => simp [locate]
  | cons y ys ih =>
    rw [locate, List.map_cons, List.sum_cons]
    split
    · rename_i hb
      exact ⟨fun _ => by omega, fun _ => nofun⟩
    · rename_i hb
      rw [ih]
      omega

/-- Settles O48, by induction on the extents. -/
theorem locateFindsExtent : Obligations.LocateFindsExtent :=
  fun _ _ => ⟨fun _ _ h => locate_eq_some h, locate_ne_none_iff⟩

end Sys2Proof.Machine
end


section
/-! The bytes of what the part writes (R96, R99 to R107, R154, R177): fields one behind the other, and where each of them
stands. -/

namespace Sys2Proof.Machine

/-! ## Fields one behind the other -/

/-- The bytes of fields, each given by its width and its value. -/
def layoutBytes : List (Nat × Nat) → List Byte
  | [] => []
  | q :: fields => leBytes q.1 q.2 ++ layoutBytes fields

/-- The fields with the offsets at which they stand, the first at `off`. -/
def fieldOffsets : Nat → List (Nat × Nat) → List (Nat × Nat × Nat)
  | _, [] => []
  | off, q :: fields => (off, q.1, q.2) :: fieldOffsets (off + q.1) fields

theorem layoutBytes_append (a b : List (Nat × Nat)) : layoutBytes (a ++ b) = layoutBytes a ++ layoutBytes b := by
  induction a with
  | nil => rfl
  | cons q a ih => rw [List.cons_append, layoutBytes, ih, layoutBytes, List.append_assoc]

theorem layoutBytes_length (fields : List (Nat × Nat)) : (layoutBytes fields).length = (fields.map (·.1)).sum := by
  induction fields with
  | nil => rfl
  | cons q fields ih => rw [layoutBytes, List.length_append, leBytes_length, ih, List.map_cons, List.sum_cons]

theorem leNat_leBytes (n v : Nat) : leNat (leBytes n v) = v % 256 ^ n := by
  induction n generalizing v with
  | zero => rw [pow_zero, Nat.mod_one]; rfl
  | succ n ih => rw [leBytes, leNat, ih, BitVec.toNat_ofNat, pow_succ' 256 n, Nat.mod_mul]

/-- A field behind `before` reads back, modulo its width. -/
theorem fieldAt_leBytes {before rest : List Byte} {off : Nat} (h : before.length = off) (n v : Nat) :
    fieldAt (before ++ (leBytes n v ++ rest)) off n = v % 256 ^ n := by
  have hbehind : ((before ++ (leBytes n v ++ rest)).drop off).take n = leBytes n v := by
    rw [List.drop_left' h, List.take_left' (leBytes_length n v)]
  rw [fieldAt, hbehind, leNat_leBytes]

/-- Each field stands at its offset (R177). -/
theorem fieldAt_of_mem {before rest : List Byte} {off : Nat} (h : before.length = off) {fields : List (Nat × Nat)}
    {q : Nat × Nat × Nat} (hq : q ∈ fieldOffsets off fields) :
    fieldAt (before ++ (layoutBytes fields ++ rest)) q.1 q.2.1 = q.2.2 % 256 ^ q.2.1 := by
  induction fields generalizing before off with
  | nil => cases hq
  | cons p fields ih =>
    rw [layoutBytes, List.append_assoc]
    rcases List.mem_cons.mp hq with rfl | hq
    · exact fieldAt_leBytes h p.1 p.2
    · rw [← List.append_assoc]
      exact ih (by rw [List.length_append, leBytes_length, h]) hq

theorem padTo_length (n : Nat) (bytes : List Byte) : (padTo n bytes).length = n := by
  rw [padTo, List.length_take, List.length_append, List.length_replicate]
  omega

theorem padTo_of_le {n : Nat} {bytes : List Byte} (h : bytes.length ≤ n) :
    padTo n bytes = bytes ++ List.replicate (n - bytes.length) 0 :=
  List.take_of_length_le (by rw [List.length_append, List.length_replicate]; omega)

/-- A structure of `n` bytes has the fields laid out in it, at their offsets. -/
theorem padTo_layoutBytes {n : Nat} {layout : List (Nat × Nat)} (hlen : (layout.map (·.1)).sum ≤ n)
    {fields : List (Nat × Nat × Nat)} (h : fields ⊆ fieldOffsets 0 layout) :
    (padTo n (layoutBytes layout)).length = n ∧
      ∀ q ∈ fields, fieldAt (padTo n (layoutBytes layout)) q.1 q.2.1 = q.2.2 % 256 ^ q.2.1 := by
  refine ⟨padTo_length .., fun q hq => ?_⟩
  rw [padTo_of_le (by rw [layoutBytes_length]; exact hlen)]
  exact fieldAt_of_mem (before := []) rfl (h hq)

/-! ## Labels -/

/-- A label as the number its four bytes make. -/
def Label.packed (l : Label) : Nat := l.ff % 256 + 256 * (l.ss % 256 + 256 * (l.mm % 256 + 256 * (l.hh % 256)))

theorem labelBytes_eq (l : Label) : labelBytes l = leBytes 4 l.packed := by
  have hbyte : ∀ a b : Nat, BitVec.ofNat 8 (a % 256 + 256 * b) = BitVec.ofNat 8 a ∧ (a % 256 + 256 * b) / 256 = b :=
    fun a b => ⟨BitVec.eq_of_toNat_eq (by rw [BitVec.toNat_ofNat, BitVec.toNat_ofNat]; omega), by omega⟩
  have hlast : BitVec.ofNat 8 (l.hh % 256) = BitVec.ofNat 8 l.hh :=
    BitVec.eq_of_toNat_eq (by rw [BitVec.toNat_ofNat, BitVec.toNat_ofNat]; omega)
  simp only [labelBytes, Label.packed, leBytes, hbyte, hlast, List.cons_append, List.nil_append]

/-- The two fields of a timecode. -/
def Timecode.layout (t : Timecode) : List (Nat × Nat) := [(4, t.label.packed), (4, t.day)]

theorem timecodeBytes_eq (t : Timecode) : timecodeBytes t = layoutBytes t.layout := by
  rw [timecodeBytes, labelBytes_eq]
  simp only [Timecode.layout, layoutBytes, List.append_nil]

/-! ## Index records (section 11.5) -/

/-- The fields of a drop tally (R103). -/
def Tally.layout (c : Tally) : List (Nat × Nat) := [(2, c.overrun), (2, c.mismatch), (2, c.broken), (2, c.emptyFrame)]

/-- A record's fields from byte 6 on, with their widths. -/
def RecordBody.layout (t : Take) : RecordBody → List (Nat × Nat)
  | .start r =>
    [(4, r.label.toNat), (6, r.capture.toNat)] ++ r.tc.layout ++
      [(2, r.geom.w), (2, r.geom.h), (1, r.geom.rate.code), (1, r.geom.factor)]
  | .frame r =>
    r.tc.layout ++ [(6, r.capture.toNat), (2, (r.settled.map (·.concealedCount)).getD 0),
      (1, (r.settled.map (·.outcome.code)).getD 0), (1, (r.settled.map (·.extent)).getD 0),
      (6, (r.settled.map (·.offset)).getD 0)]
  | .gap tally missing expected => tally.layout ++ [(2, missing), (4, expected)]
  | .discontinuity tally previous new => tally.layout ++ [(2, 0), (4, previous), (4, new)]
  | .linkLoss capture _ | .linkBack capture | .starved capture | .fed capture => [(6, capture.toNat)]
  | .cadenceOff measured | .cadenceOk measured => [(6, measured)]
  | .metadata tag value => [(1, tag.toNat), (1, 0), (6, (value.map (·.toNat)).getD 0)]
  | .extentRejected _ entry => [(1, entry)]
  | .endRecord =>
    [(4, t.committed)] ++ (t.lastTc.getD .zero).layout ++
      [(6, (t.endCapture.map (·.toNat)).getD 0), (2, min 65535 (t.browseField t.browseWritten)),
        (2, min 65535 (t.browseField t.browseSkipped)), (2, min 65535 t.eventsDiscarded),
        (2, min 65535 t.framesDiscarded)]

theorem RecordBody.fields_eq (t : Take) (b : RecordBody) : b.fields t = layoutBytes (b.layout t) := by
  cases b <;>
    simp only [RecordBody.fields, RecordBody.layout, layoutBytes_append, timecodeBytes_eq, tallyBytes, count16,
      Nat.min_comm 65535, Tally.layout, layoutBytes, List.append_nil, List.append_assoc]

/-- All fields of a record of take `t` at take position `p`. -/
def RecordBody.wholeLayout (t : Take) (p : Nat) (b : RecordBody) : List (Nat × Nat) :=
  (1, b.kind) :: (1, b.flagByte t) :: (4, p) :: b.layout t

theorem recordBytes_eq (t : Take) (p : Nat) (b : RecordBody) :
    recordBytes t p b = padTo 32 (layoutBytes (b.wholeLayout t p)) := by
  rw [recordBytes, RecordBody.fields_eq]
  simp only [RecordBody.wholeLayout, layoutBytes, List.append_assoc]

theorem RecordBody.wholeLayout_width (t : Take) (p : Nat) (b : RecordBody) :
    ((b.wholeLayout t p).map (·.1)).sum ≤ 32 := by
  cases b <;> simp [RecordBody.wholeLayout, RecordBody.layout, Timecode.layout, Tally.layout]

/-- A record has the fields of its layout, at their offsets. -/
theorem recordBytes_fields {t : Take} {p : Nat} {b : RecordBody} {fields : List (Nat × Nat × Nat)}
    (h : fields ⊆ fieldOffsets 0 (b.wholeLayout t p)) :
    (recordBytes t p b).length = 32 ∧ ∀ q ∈ fields, fieldAt (recordBytes t p b) q.1 q.2.1 = q.2.2 % 256 ^ q.2.1 := by
  rw [recordBytes_eq]
  exact padTo_layoutBytes (b.wholeLayout_width t p) h

/-! ## The progress block and the answer record (sections 11.4 and 11.8) -/

/-- The fields of a take's progress block. -/
def Take.progressLayout (t : Take) : List (Nat × Nat) :=
  [(4, t.committed), (4, t.browseField t.browseWritten), (4, t.browseField t.browseSkipped), (4, t.indexWritten)] ++
    (t.firstTc.getD .zero).layout ++ (t.lastTc.getD .zero).layout ++
    [(6, (t.startCapture.map (·.toNat)).getD 0), (6, (t.endCapture.map (·.toNat)).getD 0), (4, t.eventsDiscarded),
      (4, t.framesDiscarded), (2, t.deferredStops), (1, codeOr CloseReason.code t.reason), (1, 0),
      (8, t.committed * t.mfb)]

theorem progressBytes_eq (t : Take) : progressBytes t = layoutBytes t.progressLayout := by
  simp only [progressBytes, Take.progressLayout, layoutBytes_append, timecodeBytes_eq, layoutBytes, List.append_nil,
    List.append_assoc]

theorem progressBytes_length (t : Take) : (progressBytes t).length = 64 := by
  rw [progressBytes_eq, layoutBytes_length]
  rfl

theorem progressBytes_fields {t : Take} {fields : List (Nat × Nat × Nat)} (h : fields ⊆ fieldOffsets 0 t.progressLayout) :
    ∀ q ∈ fields, fieldAt (progressBytes t) q.1 q.2.1 = q.2.2 % 256 ^ q.2.1 := by
  intro q hq
  have := fieldAt_of_mem (before := []) (rest := []) rfl (h hq)
  rwa [List.append_nil, List.nil_append, ← progressBytes_eq] at this

/-- The fields of an answer record. -/
def Answer.layout (a : Answer) : List (Nat × Nat) :=
  [(4, a.taken.toNat), (1, codeOr FeedRequest.code a.lastRequest), (1, codeOr Result.code a.lastResult), (1, a.field)]

theorem answerBytes_fields {a : Answer} {fields : List (Nat × Nat × Nat)} (h : fields ⊆ fieldOffsets 0 a.layout) :
    (answerBytes a).length = 16 ∧ ∀ q ∈ fields, fieldAt (answerBytes a) q.1 q.2.1 = q.2.2 % 256 ^ q.2.1 := by
  have heq : answerBytes a = padTo 16 (layoutBytes a.layout) := by
    simp only [answerBytes, Answer.layout, layoutBytes, List.append_nil, List.append_assoc]
  rw [heq]
  exact padTo_layoutBytes (by simp [Answer.layout]) h

/-- A layout but for one reserved field. -/
theorem subset_of_eraseIdx {fields layout : List (Nat × Nat × Nat)} (i : Nat) (h : fields = layout.eraseIdx i) :
    fields ⊆ layout := h ▸ List.eraseIdx_subset

/-- Settles O49: every structure is its layout, and the fields named are those of the layout, but for reserved ones. -/
theorem writtenLayouts : Obligations.WrittenLayouts := by
  intro t p
  refine ⟨fun r => recordBytes_fields (List.Subset.refl _), fun r st hst => recordBytes_fields ?_,
    fun _ _ _ => recordBytes_fields (List.Subset.refl _),
    fun _ _ _ => recordBytes_fields (subset_of_eraseIdx 7 rfl),
    fun _ => ⟨recordBytes_fields (List.Subset.refl _), recordBytes_fields (List.Subset.refl _),
      recordBytes_fields (List.Subset.refl _), recordBytes_fields (List.Subset.refl _),
      recordBytes_fields (List.Subset.refl _)⟩,
    fun _ => ⟨recordBytes_fields (List.Subset.refl _), recordBytes_fields (List.Subset.refl _)⟩,
    fun _ _ => ⟨recordBytes_fields (subset_of_eraseIdx 4 rfl),
      recordBytes_fields (subset_of_eraseIdx 4 rfl)⟩,
    fun _ => ⟨recordBytes_fields (List.Subset.refl _), recordBytes_fields (List.Subset.refl _),
      recordBytes_fields (List.Subset.refl _)⟩,
    recordBytes_fields (List.Subset.refl _), progressBytes_length t,
    progressBytes_fields (subset_of_eraseIdx 14 rfl),
    fun a => answerBytes_fields (List.Subset.refl _)⟩
  obtain ⟨position, tc, capture, substituted, slot, settled⟩ := r
  subst hst
  exact List.Subset.refl _

end Sys2Proof.Machine
end


section
/-! Take requests served in the step they are taken: STOP, HALT and ABORT against a Live take, and REFILL (R81 to R84, R86,
R87). -/

namespace Sys2Proof.Machine

/-! ## A request that is answered when it is served (R160, R162) -/

/-- Feed `f`'s request `q` is in hand. -/
def State.inHand (f : FeedId) (q : FeedRequest) (s : State) : State := s.onAttention fun u => { u with
  pending := upd u.pending f fun _ => some ⟨q, true⟩, lastServed := some f }

theorem State.inHand_onlyFeed {s : State} (hc : s.front.attention.clear = true) (f : FeedId) (q : FeedRequest) :
    (s.inHand f q).front.attention.onlyFeed f = true := by
  obtain ⟨-, hglobal, hpending⟩ := (Attention.clear_iff _).mp hc
  simp only [Attention.onlyFeed, Bool.and_eq_true, List.all_eq_true, Bool.or_eq_true, beq_iff_eq, Option.isNone_iff_eq_none]
  refine ⟨hglobal, fun g _ => or_iff_not_imp_left.mpr fun hg => ?_⟩
  show (upd s.front.attention.pending f fun _ => some ⟨q, true⟩)[g] = none
  rw [upd_other _ hg, hpending]

theorem State.unitStep_of_busyWaiting {s : State} (hq : s.front.attention.quiet = true) (hw : s.eng.busyWaiting = true) :
    s.unitStep = none := by
  obtain ⟨hblock, hgrant⟩ := Engine.steps_of_busyWaiting s.front hw
  exact s.unitStep_eq_none_iff.mpr ⟨State.serveStep_of_quiet hq, hblock, State.refillStep_of_quiet hq, hgrant⟩

theorem State.conclude_asksOnly (f : FeedId) (q : FeedRequest) (r : Result) (n : Nat) (s : State) :
    s.eng.AsksOnly (s.conclude f q r n).eng :=
  (Engine.ask_asksOnly s.eng _).trans (Engine.setCauses_asksOnly ..)

theorem State.conclude_grows (f : FeedId) (q : FeedRequest) (r : Result) (n : Nat) (s : State) :
    s.eng.Grows (s.conclude f q r n).eng :=
  (Engine.Grows.refl s.eng).ask.raise

theorem State.conclude_answer (f : FeedId) (q : FeedRequest) (r : Result) (n : Nat) (s : State) :
    (s.conclude f q r n).front.attention.answers[f] = ⟨s.front.attention.answers[f].taken + 1, some q, some r, n⟩ :=
  upd_same ..

/-- A request taken while nothing else is requested, whose service leaves every block waiting and answers it, is over with
the answer. -/
theorem State.settle_attentionFeed_answered {f : FeedId} {q : FeedRequest} {r : Result} {n : Nat} {s u : State}
    (hrun : s.front.attention.part = .running) (hc : s.front.attention.clear = true)
    (hserve : (s.inHand f q).serveFeed f q = u.conclude f q r n)
    (hu : u.front.attention.onlyFeed f = true) (hw : u.eng.busyWaiting = true) :
    (s.attentionFeed q (maskOf f)).settle = u.conclude f q r n := by
  obtain ⟨fuel, hsettle⟩ := State.settle_of_serveStep (State.attentionFeed_serveStep (f := f) (q := q) hrun hc)
  rw [hsettle, ← hserve]
  refine State.settleFor_of_unitStep (s := (s.inHand f q).serveFeed f q) ?_ fuel
  rw [hserve]
  exact State.unitStep_of_busyWaiting (State.conclude_quiet hu ..)
    ((State.conclude_asksOnly ..).sameWork.sameWaits.busyWaiting hw)

/-! ## END joins a queue that has room (R111 to R113) -/

/-- Below 488 records other than FRAME placeholders, no room has to be made. -/
theorem Engine.makeRoom_of_room {f : FeedId} {e : Engine}
    (h : ((e.feedRecords f).filter fun r => !r.body.isFrame).length < eventPlaces) : e.makeRoom f = e :=
  if_neg (Nat.not_le.mpr h)

/-- The feed's records are those of its takes' queues, whatever else changes in the takes. -/
theorem Engine.feedRecords_updTake (f : FeedId) (n : Nat) {g : Take → Take} (hfeed : ∀ k, (g k).feed = k.feed)
    (hqueue : ∀ k, (g k).queue = k.queue) (e : Engine) : (e.updTake n g).feedRecords f = e.feedRecords f := by
  have hchange : ∀ k : Take, (if k.id = n then g k else k).feed = k.feed ∧ (if k.id = n then g k else k).queue = k.queue := by
    intro k
    split
    · exact ⟨hfeed k, hqueue k⟩
    · exact ⟨rfl, rfl⟩
  unfold Engine.feedRecords
  rw [Engine.updTake_takes, List.filter_map, List.flatMap_map]
  simp only [Function.comp_def, hchange]

/-- What END's joining makes of the take: its held rejects are counted and dropped (R69, R111). -/
def Take.withEnd (seq : Nat) (k : Take) : Take := { k with
  queue := k.queue ++ [⟨seq, .endRecord⟩]
  heldRejects := []
  eventsDiscarded := k.eventsDiscarded + k.heldRejects.length }

/-- END's joining, with room for it, is a change of the take that uses the next record number. -/
theorem Engine.queueEnd_of_room {f : FeedId} {e : Engine}
    (h : ((e.feedRecords f).filter fun r => !r.body.isFrame).length < eventPlaces) (n : Nat) :
    e.queueEnd f n = (e.updTake n (Take.withEnd e.nextSeq)).bumpSeq := by
  unfold Engine.queueEnd
  dsimp only
  rw [Engine.makeRoom_of_room h]
  rfl

/-! ## The Live take closes, or its stop is deferred (R86, R87) -/

theorem Engine.updPlaces_sameWaits (f : FeedId) (g : Places → Places) (e : Engine) : e.SameWaits (e.updPlaces f g) :=
  ⟨rfl, rfl, rfl, rfl, rfl⟩

/-- Two changes of one take, one behind the other. -/
theorem Engine.updTake_updTake {n : Nat} {g h : Take → Take} (hg : ∀ k, (g k).id = k.id) (e : Engine) :
    (e.updTake n g).updTake n h = e.updTake n fun k => h (g k) := by
  have hboth : ∀ k : Take, (if (if k.id = n then g k else k).id = n then h (if k.id = n then g k else k)
      else if k.id = n then g k else k) = if k.id = n then h (g k) else k := by
    intro k
    by_cases hk : k.id = n
    · rw [if_pos hk, if_pos ((hg k).trans hk), if_pos hk]
    · rw [if_neg hk, if_neg hk, if_neg hk]
  simp only [Engine.updTake, List.map_map, Function.comp_def, hboth]

/-- The close of the Live take with room for END: of the takes it changes that one alone, and the blocks go on waiting
(R86). -/
theorem Engine.closeLive_of_room {f : FeedId} {e : Engine}
    (h : ((e.feedRecords f).filter fun r => !r.body.isFrame).length < eventPlaces) (k : Take) (reason : CloseReason)
    (capture : Count) :
    (∀ n, (e.closeLive f k reason capture).take? n =
      (e.updTake k.id fun k => (Engine.closed reason capture k).withEnd e.nextSeq).take? n) ∧
      e.SameWaits (e.closeLive f k reason capture) := by
  let placed := e.updPlaces f fun p => { p with live := none, closing := p.closing ++ [k.id] }
  let u := placed.updTake k.id (Engine.closed reason capture)
  have hroom : ((u.feedRecords f).filter fun r => !r.body.isFrame).length < eventPlaces := by
    rw [Engine.feedRecords_updTake f k.id (g := Engine.closed reason capture) (fun _ => rfl) fun _ => rfl]
    exact h
  have hasks : (u.queueEnd f k.id).AsksOnly (e.closeLive f k reason capture) :=
    ((Engine.ask_asksOnly ..).trans (Engine.ask_asksOnly ..)).trans (Engine.ask_asksOnly ..)
  rw [Engine.queueEnd_of_room hroom] at hasks
  refine ⟨fun n => ?_, ?_⟩
  · rw [hasks.sameWork.take?]
    show ((placed.updTake k.id (Engine.closed reason capture)).updTake k.id (Take.withEnd e.nextSeq)).take? n = _
    rw [Engine.updTake_updTake (g := Engine.closed reason capture) fun _ => rfl]
    rfl
  · exact (((Engine.updPlaces_sameWaits f _ e).trans (Engine.updTake_sameWaits placed k.id fun _ => by rfl)).trans
      ((Engine.updTake_sameWaits u k.id fun _ => by rfl).trans (Engine.bumpSeq_sameWaits _))).trans
        hasks.sameWork.sameWaits

/-- The Live take once its stop is deferred, and that the blocks go on waiting (R87). -/
theorem Engine.deferStop_take {f : FeedId} {k : Take} {e : Engine} (hk : e.take? k.id = some k) (reason : CloseReason) :
    (e.deferStop f k reason).take? k.id = some { k with deferredStops := k.deferredStops + 1 } ∧
      e.SameWaits (e.deferStop f k reason) :=
  ⟨Engine.take?_updTake_self (e.updPlaces f _) _ (fun _ => rfl) hk,
    (Engine.updPlaces_sameWaits f _ e).trans (Engine.updTake_sameWaits _ k.id fun _ => rfl)⟩

/-! ## STOP and HALT of a RECORDING take (R81, R82) -/

theorem Engine.stagedTake_of_none {e : Engine} {f : FeedId} (h : e.places[f].staged = none) : e.stagedTake f = none := by
  rw [Engine.stagedTake, h]
  rfl

theorem Engine.cancelStaged_of_none {e : Engine} {f : FeedId} (h : e.places[f].staged = none) : e.cancelStaged f = e := by
  rw [Engine.cancelStaged, Engine.stagedTake_of_none h]

/-- A stop of the RECORDING Live take, none being deferred and no take Staged: it closes, or is deferred (R87). -/
theorem Engine.stopLive_of_plain {x : Front} {f : FeedId} {k : Take} {e : Engine} (hstaged : e.places[f].staged = none)
    (hdef : e.places[f].deferredStop = none) (reason : CloseReason) :
    e.stopLive x f k reason =
      if e.closingFull f then e.deferStop f k reason else e.closeLive f k reason x.refCount := by
  have hnone : (e.closeLive f k reason x.refCount).stagedTake f = none :=
    Engine.stagedTake_of_none (by rw [Engine.closeLive_places]; exact hstaged)
  rw [Engine.stopLive, if_neg (by rw [hdef]; nofun), Engine.promoteAfterClose, hnone]

theorem Engine.stopLive_staged {x : Front} {f : FeedId} {k : Take} {e : Engine} (hstaged : e.places[f].staged = none)
    (hdef : e.places[f].deferredStop = none) (reason : CloseReason) : (e.stopLive x f k reason).places[f].staged = none := by
  rw [Engine.stopLive_of_plain hstaged hdef]
  split
  · rw [Engine.deferStop_places]
    exact hstaged
  · rw [Engine.closeLive_places]
    exact hstaged

theorem State.enabledLive_of_enabled {s : State} {f : FeedId} {k : Take} (he : s.front.receivers[f].enabled = true)
    (hk : s.eng.liveTake f = some k) : s.enabledLive f = some k := by
  rw [State.enabledLive, State.receiver_eq, if_pos he, hk]

theorem State.serveStop_of_live {s : State} {f : FeedId} {k : Take} (h : s.enabledLive f = some k) :
    s.serveFeed f .stop = (s.act fun x e => e.stopTake x f k).conclude f .stop .done 0 := by
  show s.serveStop f = _
  rw [State.serveStop, h]

theorem State.serveHalt_of_live {s : State} {f : FeedId} {k : Take} (h : s.enabledLive f = some k) :
    s.serveFeed f .halt = (s.act fun x e => e.haltTake x f k).conclude f .halt .done 0 := by
  show s.serveHalt f = _
  rw [State.serveHalt, h]

/-- Settles O41: both requests stop the Live take, each with its own reason. -/
theorem stopResult : Obligations.StopResult := by
  intro f req c reason k s hreq hrun hc he hlive hrec hstaged hdef hw hroom
  let e := s.eng.stopLive (s.inHand f req).front f k reason
  let u := (s.inHand f req).act fun _ _ => e
  have hk := (Engine.mem_of_liveTake hlive).2
  have hlive' : (s.inHand f req).enabledLive f = some k := State.enabledLive_of_enabled he hlive
  have harmed : ¬k.state = .armed := by rw [hrec]; nofun
  have hserve : (s.inHand f req).serveFeed f req = u.conclude f req .done 0 ∧
      exec c s = .next (s.attentionFeed req (maskOf f)).settle := by
    rcases hreq with ⟨rfl, rfl, rfl⟩ | ⟨rfl, rfl, rfl⟩
    · refine ⟨(State.serveStop_of_live hlive').trans ?_, rfl⟩
      simp only [Engine.stopTake, if_neg harmed]
      rfl
    · refine ⟨(State.serveHalt_of_live hlive').trans ?_, rfl⟩
      simp only [Engine.haltTake, if_neg harmed]
      exact congrArg (fun e => ((s.inHand f .halt).act fun _ _ => e).conclude f .halt .done 0)
        (Engine.cancelStaged_of_none (Engine.stopLive_staged hstaged hdef _))
  have hstop : e = if s.eng.closingFull f then s.eng.deferStop f k reason else s.eng.closeLive f k reason s.front.refCount :=
    Engine.stopLive_of_plain hstaged hdef reason
  obtain ⟨hdeferred, hdefwaits⟩ := Engine.deferStop_take (f := f) hk reason
  obtain ⟨htakes, hclosewaits⟩ := Engine.closeLive_of_room hroom k reason s.front.refCount
  have hclosed := (htakes k.id).trans (Engine.take?_updTake_self _ _ (fun _ => by rfl) hk)
  have hsame := Engine.closeLive_sameTakes f k reason s.front.refCount s.eng
  have hwaits : s.eng.SameWaits e ∧ e.slots = s.eng.slots ∧ e.held = s.eng.held ∧ e.opened = s.eng.opened := by
    rw [hstop]
    split
    · exact ⟨hdefwaits, rfl, rfl, rfl⟩
    · exact ⟨hclosewaits, hsame.slots, hsame.held, hsame.opened⟩
  obtain ⟨hwaits, hslots, hheld, hopened⟩ := hwaits
  have hasks : e.AsksOnly (u.conclude f req .done 0).eng := u.conclude_asksOnly ..
  have hwork := hasks.sameWork
  have hexec := hserve.2
  rw [State.settle_attentionFeed_answered (u := u) hrun hc hserve.1 (State.inHand_onlyFeed hc f req)
    (hwaits.busyWaiting hw)] at hexec
  refine ⟨_, hexec, State.conclude_answer .., hwork.slots.trans hslots, hwork.held.trans hheld,
    hasks.opened.trans hopened, rfl, rfl, fun hlen => ?_, fun hlen => ?_⟩
  · rw [if_neg (by rw [Engine.closingFull_iff]; omega)] at hstop
    rw [hwork.places, hwork.take?, hstop, Engine.closeLive_places]
    exact ⟨rfl, hclosed⟩
  · rw [if_pos ((Engine.closingFull_iff ..).mpr hlen)] at hstop
    rw [hwork.places, hwork.take?, hstop, Engine.deferStop_places]
    exact ⟨rfl, hdeferred⟩

/-! ## STOP, HALT and ABORT of an ARMED take (R81 to R83) -/

/-- In `u` the take `k` of the engine `e` is CANCELLED, with the write of that state asked, and has left Live; the pool
and the blocks' waits are as in `e`. -/
structure Engine.Cancels (f : FeedId) (k : Take) (e u : Engine) : Prop where
  take : u.take? k.id = some { k with state := .cancelled }
  writes : .sheetState k.id k.sheet .cancelled ∈ u.port.writes
  live : u.places[f].live = none
  staged : u.places[f].staged = e.places[f].staged
  closing : u.places[f].closing = e.places[f].closing
  slots : u.slots = e.slots
  held : u.held = e.held
  waits : e.SameWaits u

/-- What only asks keeps the cancelled take. -/
theorem Engine.Cancels.asks {f : FeedId} {k : Take} {e u v : Engine} (h : e.Cancels f k u) (hv : u.AsksOnly v)
    (hg : u.Grows v) : e.Cancels f k v := by
  have hwork := hv.sameWork
  refine ⟨(hwork.take? _).trans h.take, hg.mem h.writes, ?_, ?_, ?_, hwork.slots.trans h.slots, hwork.held.trans h.held,
    h.waits.trans hwork.sameWaits⟩
  · rw [hwork.places]; exact h.live
  · rw [hwork.places]; exact h.staged
  · rw [hwork.places]; exact h.closing

/-- A take is cancelled and leaves Live. -/
theorem Engine.cancelTake_cancels {f : FeedId} {k : Take} {e : Engine} (hk : e.take? k.id = some k) {g : Places → Places}
    (hlive : ∀ p, (g p).live = none) (hstaged : ∀ p, (g p).staged = p.staged) (hclosing : ∀ p, (g p).closing = p.closing) :
    e.Cancels f k ((e.cancelTake k).updPlaces f g) := by
  have htake : (e.updTake k.id fun k => { k with state := .cancelled }).take? k.id = some { k with state := .cancelled } :=
    Engine.take?_updTake_self e _ (fun _ => by rfl) hk
  have hplaces : ((e.cancelTake k).updPlaces f g).places[f] = g e.places[f] := by
    rw [Engine.updPlaces_places, upd_same, Engine.cancelTake, Engine.ask_places]
    rfl
  have hasks := Engine.ask_sameWork (e.updTake k.id fun k => { k with state := .cancelled })
    (.sheetState k.id k.sheet .cancelled)
  refine ⟨(hasks.take? _).trans htake, Engine.mem_ask (w := .sheetState k.id k.sheet .cancelled) rfl _, ?_, ?_, ?_,
    hasks.slots, hasks.held, ?_⟩
  · rw [hplaces, hlive]
  · rw [hplaces, hstaged]
  · rw [hplaces, hclosing]
  · exact ((Engine.updTake_sameWaits e k.id fun _ => by rfl).trans hasks.sameWaits).trans
      (Engine.updPlaces_sameWaits f g _)

/-- STOP and HALT of the ARMED Live take (R81, R82). -/
theorem Engine.cancelLive_cancels {f : FeedId} {k : Take} {e : Engine} (hk : e.take? k.id = some k) :
    e.Cancels f k (e.cancelLive f k) :=
  (Engine.cancelTake_cancels (g := fun p => { p with live := none }) hk (fun _ => rfl) (fun _ => rfl) fun _ => rfl).asks
    (Engine.ask_asksOnly ..) (.ask (.refl _))

/-- ABORT of a feed whose only take is the ARMED Live take (R83). -/
theorem Engine.endTakes_cancels {x : Front} {f : FeedId} {k : Take} {e : Engine} (hlive : e.liveTake f = some k)
    (harmed : k.state = .armed) (hstaged : e.places[f].staged = none) (hclosing : e.places[f].closing = [])
    (reason : CloseReason) : e.Cancels f k (e.endTakes x f reason) := by
  let u := e.abortUnbegun k
  have hu : u.places = e.places := by
    show (e.abortUnbegun k).places = _
    rw [Engine.abortUnbegun_eq]
  have hends : e.endTakes x f reason =
      ((u.updPlaces f fun p => { p with live := none, deferredStop := none }).ask (.live f)).syncConditions x f := by
    have hnone : u.cancelStaged f = u := Engine.cancelStaged_of_none (by rw [hu]; exact hstaged)
    unfold Engine.endTakes
    simp only [hlive, hclosing, harmed, Option.filter_some, List.filterMap_nil, List.append_nil, reduceIte]
    show (((u.cancelStaged f).updPlaces f _).ask _).syncConditions x f = _
    rw [hnone]
  have hwithdrawn : (e.withdrawReads (ReadRequest.ofTake k.id)).Cancels f k
      (u.updPlaces f fun p => { p with live := none, deferredStop := none }) :=
    Engine.cancelTake_cancels (e := e.withdrawReads _) (Engine.mem_of_liveTake hlive).2 (fun _ => rfl) (fun _ => rfl)
      fun _ => rfl
  rw [hends]
  exact Engine.Cancels.asks ⟨hwithdrawn.take, hwithdrawn.writes, hwithdrawn.live, hwithdrawn.staged, hwithdrawn.closing,
    hwithdrawn.slots, hwithdrawn.held,
    .trans (b := e.withdrawReads _) ⟨rfl, rfl, rfl, rfl, rfl⟩ hwithdrawn.waits⟩
    ((Engine.ask_asksOnly ..).trans (Engine.setCauses_asksOnly ..))
    (.syncConditions (.ask (.refl _)))

/-- A request that cancels the feed's ARMED Live take and is answered DONE. -/
theorem exec_of_cancellation {f : FeedId} {q : FeedRequest} {c : Instr} {k : Take} {s : State} {e : Engine}
    (hrun : s.front.attention.part = .running) (hc : s.front.attention.clear = true) (hw : s.eng.busyWaiting = true)
    (hexec : exec c s = .next (s.attentionFeed q (maskOf f)).settle)
    (hserve : (s.inHand f q).serveFeed f q = ((s.inHand f q).act fun _ _ => e).conclude f q .done 0)
    (he : s.eng.Cancels f k e) :
    ∃ t, exec c s = .next t ∧ s.eng.Cancels f k t.eng ∧
      t.front.attention.answers[f] = ⟨s.front.attention.answers[f].taken + 1, some q, some .done, 0⟩ ∧
      t.front.receivers = s.front.receivers := by
  rw [State.settle_attentionFeed_answered hrun hc hserve (State.inHand_onlyFeed hc f q) (he.waits.busyWaiting hw)] at hexec
  exact ⟨_, hexec, he.asks (State.conclude_asksOnly ..)
    (State.conclude_grows (s := (s.inHand f q).act fun _ _ => e) ..), State.conclude_answer .., rfl⟩

/-- Settles O42: each of the three requests cancels the take. -/
theorem cancelArmedResult : Obligations.CancelArmedResult := by
  intro f k s hrun hc he hlive harmed hstaged hclosing hw p hp
  have hcancel := Engine.cancelLive_cancels (f := f) (Engine.mem_of_liveTake hlive).2
  have hserved : ∃ t, exec p.2 s = .next t ∧ s.eng.Cancels f k t.eng ∧
      t.front.attention.answers[f] = ⟨s.front.attention.answers[f].taken + 1, some p.1, some .done, 0⟩ ∧
      t.front.receivers = s.front.receivers := by
    simp only [List.mem_cons, List.not_mem_nil, or_false] at hp
    rcases hp with rfl | rfl | rfl
    · refine exec_of_cancellation hrun hc hw rfl
        ((State.serveStop_of_live
        (State.enabledLive_of_enabled (s := s.inHand f .stop) he hlive)).trans ?_) hcancel
      have hstop : s.eng.stopTake (s.inHand f .stop).front f k = s.eng.cancelLive f k := by
        rw [Engine.stopTake, if_pos harmed, Engine.stagedTake_of_none hstaged]
      exact congrArg (fun e => ((s.inHand f .stop).act fun _ _ => e).conclude f .stop .done 0) hstop
    · refine exec_of_cancellation hrun hc hw rfl
        ((State.serveHalt_of_live
        (State.enabledLive_of_enabled (s := s.inHand f .halt) he hlive)).trans ?_) hcancel
      have hhalt : s.eng.haltTake (s.inHand f .halt).front f k = s.eng.cancelLive f k := by
        rw [Engine.haltTake, if_pos harmed, Engine.cancelStaged_of_none (hcancel.staged.trans hstaged)]
      exact congrArg (fun e => ((s.inHand f .halt).act fun _ _ => e).conclude f .halt .done 0) hhalt
    · refine exec_of_cancellation hrun hc hw rfl ?_ (Engine.endTakes_cancels (x := (s.inHand f .abort).front) hlive harmed
        hstaged hclosing .aborted)
      have hsome : s.eng.places[f].live.isSome := by rw [(Engine.mem_of_liveTake hlive).1]; rfl
      exact if_pos ⟨he, .inl hsome⟩
  obtain ⟨t, hexec, hcancels, hanswer, hreceivers⟩ := hserved
  exact ⟨t, hexec, hcancels.live, hcancels.staged.trans hstaged, hcancels.closing.trans hclosing, hcancels.take,
    hcancels.writes, hanswer, hcancels.slots, hcancels.held, hreceivers⟩

/-! ## REFILL (R84) -/

theorem State.serveRefill_of_enabled {s : State} {f : FeedId} (he : s.front.receivers[f].enabled = true) :
    s.serveFeed f .refill = match s.eng.rereadTakes f with
      | [] => s.conclude f .refill .done 0
      | takes => s.act fun _ e => takes.foldl (fun e t => e.askReread true t) e :=
  if_pos he

/-- The front once a request that did not wait is answered. -/
theorem State.conclude_inHand_front {s : State} {f : FeedId} (h : s.front.attention.pending[f] = none) (q : FeedRequest)
    (r : Result) (n : Nat) : ((s.inHand f q).conclude f q r n).front = { s.front with attention := { s.front.attention with
      lastServed := some f
      answers := upd s.front.attention.answers f fun a => ⟨a.taken + 1, some q, some r, n⟩ } } := by
  have hended : upd (upd s.front.attention.pending f fun _ => some ⟨q, true⟩) f (fun _ => none) =
      s.front.attention.pending := by
    rw [upd_upd]
    exact upd_eq_self _ _ _ h.symm
  exact congrArg (fun p => { s.front with attention := { s.front.attention with
    pending := p
    lastServed := some f
    answers := upd s.front.attention.answers f fun a => ⟨a.taken + 1, some q, some r, n⟩ } }) hended

/-- A REFILL in hand whose reread has been asked waits, and no other request does. -/
theorem State.unitStep_of_refillWaits {s : State} {f : FeedId} (hglobal : s.front.attention.global = none)
    (hf : s.front.attention.pending[f] = some ⟨.refill, true⟩)
    (hothers : ∀ g : FeedId, g ≠ f → s.front.attention.pending[g] = none) (hread : s.eng.port.refillWaits f = true)
    (hw : s.eng.busyWaiting = true) : s.unitStep = none := by
  have hnext : s.front.attention.nextFeed = none := by
    unfold Attention.nextFeed
    rw [List.findSome?_eq_none_iff]
    intro g _
    by_cases hg : g = f
    · rw [hg, hf]
      rfl
    · rw [hothers g hg]
  obtain ⟨hblock, hgrant⟩ := Engine.steps_of_busyWaiting s.front hw
  refine s.unitStep_eq_none_iff.mpr ⟨s.serveStep_eq_none_iff.mpr (.inr ⟨hglobal, hnext⟩), hblock,
    s.refillStep_eq_none_iff.mpr fun g hg => ?_, hgrant⟩
  by_cases hgf : g = f
  · rw [hgf]
    exact hread
  · rw [hothers g hgf] at hg
    cases hg

/-- Settles O44. -/
theorem refillResult : Obligations.RefillResult := by
  intro f s hrun hc he hclosing
  obtain ⟨-, hglobal, hpending⟩ := (Attention.clear_iff _).mp hc
  have hserve := State.serveRefill_of_enabled (s := s.inHand f .refill) (f := f) he
  have htakes : (s.inHand f .refill).eng.rereadTakes f = (s.eng.recordingTake f).toList := by
    show s.eng.rereadTakes f = _
    rw [Engine.rereadTakes, hclosing, List.filterMap_nil, List.append_nil]
  obtain ⟨fuel, hsettle⟩ := State.settle_of_serveStep (State.attentionFeed_serveStep (f := f) (q := .refill) hrun hc)
  change _ = ((s.inHand f .refill).serveFeed f .refill).settleFor fuel at hsettle
  rw [htakes] at hserve
  refine ⟨fun hnone => ⟨_, rfl, ?_⟩, fun k hk hfeed hw hreads => ?_⟩
  · rw [hnone] at hserve
    show (s.attentionFeed .refill (maskOf f)).settle.front = _
    rw [hsettle, hserve, Option.toList_none]
    show (((s.inHand f .refill).conclude f .refill .done 0).settleFor fuel).front = _
    rw [State.settleFor_front (State.conclude_quiet (State.inHand_onlyFeed hc f .refill) ..)]
    exact State.conclude_inHand_front (hpending f) ..
  · rw [hk] at hserve
    have hask : s.eng.askReread true k = s.eng.askRead (.posted f k.id k.sheet true) := by
      rw [Engine.askReread, if_neg (by simpa using hreads), hfeed]
    show Host.Outcome.next (s.attentionFeed .refill (maskOf f)).settle = _
    rw [hsettle, hserve, Option.toList_some]
    show Host.Outcome.next (((s.inHand f .refill).act fun _ _ => s.eng.askReread true k).settleFor fuel) = _
    rw [hask, State.settleFor_of_unitStep]
    · rfl
    · refine State.unitStep_of_refillWaits (f := f) hglobal (upd_same ..)
        (fun g hg => (upd_other _ hg _).trans (hpending g)) ?_ ((Engine.askRead_sameWork ..).sameWaits.busyWaiting hw)
      simp [Port.refillWaits, ReadRequest.refillOf]

end Sys2Proof.Machine
end


section
/-! Where a taken ARM places the new take (R70, R73, R74, R86, R87). -/

namespace Sys2Proof.Machine

/-- A new take as it stands in Live: ARMED, CONTIGUOUS taken as IMMEDIATE (R74, R81). -/
def Take.placedLive (t : Take) : Take := { t with state := .armed, startMode := t.startMode.asLive }

namespace Engine

/-! ## A sheet's state is asked behind its progress block (R70) -/

/-- The write of take `k`'s sheet state `st` waits, its progress block ahead of it. -/
def Asked (st : SheetState) (k : Take) (e : Engine) : Prop := ∃ before behind,
  e.port.writes = before ++ .sheetState k.id k.sheet st :: behind ∧ .progress k.id k.sheet ∈ before

theorem askState_asked (st : SheetState) (k : Take) (e : Engine) : (e.askState k.id k.sheet st).Asked st k := by
  have hprogress : .progress k.id k.sheet ∈ (e.ask (.progress k.id k.sheet)).port.writes := by
    unfold Engine.ask
    split
    · rename_i h
      exact List.contains_iff_mem.mp (Bool.and_eq_true_iff.mp h).2
    · exact List.mem_append_right _ (List.mem_singleton_self _)
  exact ⟨_, [], rfl, hprogress⟩

theorem Asked.grows {st : SheetState} {k : Take} {e u : Engine} (h : e.Asked st k) (hu : e.Grows u) : u.Asked st k := by
  obtain ⟨before, behind, hwrites, hprogress⟩ := h
  obtain ⟨tail, htail⟩ := hu.writes
  refine ⟨before, behind ++ tail, ?_, hprogress⟩
  rw [← htail, hwrites, List.append_assoc, List.cons_append]

/-- CLOSING is asked at a close (R86). -/
theorem closeLive_asked (f : FeedId) (k : Take) (reason : CloseReason) (capture : Count) (e : Engine) :
    (e.closeLive f k reason capture).Asked .closing k :=
  (askState_asked ..).grows (.ask (.refl _))

/-! ## A new context (R115) -/

theorem take?_addTake_self {e : Engine} {t : Take} (h : e.take? t.id = none) : (e.addTake t).take? t.id = some t := by
  unfold take? at h ⊢
  rw [Engine.addTake_takes, List.find?_append, h]
  simp

theorem take?_addTake_of_ne {n : Nat} {t : Take} (hn : n ≠ t.id) (e : Engine) : (e.addTake t).take? n = e.take? n := by
  unfold take?
  rw [Engine.addTake_takes, List.find?_append, List.find?_singleton, if_neg (by simpa using hn.symm), Option.or_none]

/-! ## A Staged take is SUPERSEDED (R74) -/

theorem supersedeStaged_of_none {f : FeedId} {e : Engine} (h : e.stagedTake f = none) : e.supersedeStaged f = e := by
  rw [supersedeStaged, h]

theorem supersedeStaged_of_some {f : FeedId} {g : Take} {e : Engine} (h : e.stagedTake f = some g) : e.supersedeStaged f =
    ((e.updTake g.id fun k => { k with state := .superseded }).ask (.sheetState g.id g.sheet .superseded)).updPlaces f
      fun p => { p with staged := none } := by
  rw [supersedeStaged, h]

/-- The superseded take, and the write of its state. -/
theorem supersedeStaged_take {f : FeedId} {g : Take} {e : Engine} (h : e.stagedTake f = some g) :
    (e.supersedeStaged f).take? g.id = some { g with state := .superseded } ∧
      .sheetState g.id g.sheet .superseded ∈ (e.supersedeStaged f).port.writes := by
  rw [supersedeStaged_of_some h]
  refine ⟨?_, mem_ask (w := .sheetState g.id g.sheet .superseded) rfl _⟩
  exact ((ask_sameWork ..).take? _).trans (take?_updTake_self e _ (fun _ => by rfl) (mem_of_stagedTake h).2)

/-- Every other take stays. -/
theorem supersedeStaged_other {f : FeedId} {n : Nat} {e : Engine} (h : ∀ g, e.stagedTake f = some g → g.id ≠ n) :
    (e.supersedeStaged f).take? n = e.take? n := by
  cases hg : e.stagedTake f with
  | none => rw [supersedeStaged_of_none hg]
  | some g =>
    rw [supersedeStaged_of_some hg]
    exact ((ask_sameWork ..).take? _).trans (take?_updTake_of_ne e _ (fun _ => by rfl) (h g hg).symm)

theorem supersedeStaged_places (f : FeedId) (e : Engine) : (e.supersedeStaged f).places[f] =
    { e.places[f] with staged := if (e.stagedTake f).isSome then none else e.places[f].staged } := by
  cases hg : e.stagedTake f with
  | none => rw [supersedeStaged_of_none hg]; rfl
  | some g =>
    rw [supersedeStaged_of_some hg, updPlaces_places, upd_same, ask_places]
    rfl

theorem supersedeStaged_grows (f : FeedId) (e : Engine) : e.Grows (e.supersedeStaged f) := by
  unfold supersedeStaged
  split
  · exact .refl e
  · exact (Grows.refl e).updTake.ask.updPlaces

/-- The feed's records and the record numbers stay. -/
theorem supersedeStaged_records (f : FeedId) (e : Engine) :
    (e.supersedeStaged f).feedRecords f = e.feedRecords f ∧ (e.supersedeStaged f).nextSeq = e.nextSeq := by
  cases hg : e.stagedTake f with
  | none => rw [supersedeStaged_of_none hg]; exact ⟨rfl, rfl⟩
  | some g =>
    rw [supersedeStaged_of_some hg]
    refine ⟨Eq.trans ?_ (feedRecords_updTake f g.id (g := fun k => { k with state := .superseded }) (fun _ => rfl)
      (fun _ => rfl) e), ask_nextSeq ..⟩
    unfold feedRecords
    rw [updPlaces_takes, ask_takes]

theorem supersedeStaged_sameWaits (f : FeedId) (e : Engine) : e.SameWaits (e.supersedeStaged f) := by
  cases hg : e.stagedTake f with
  | none => rw [supersedeStaged_of_none hg]; exact .refl e
  | some g =>
    rw [supersedeStaged_of_some hg]
    exact ((updTake_sameWaits e g.id fun _ => by rfl).trans (ask_sameWork ..).sameWaits).trans (updPlaces_sameWaits ..)

/-- A number without a context has none either way. -/
theorem supersedeStaged_take?_none {f : FeedId} {n : Nat} {e : Engine} (h : e.take? n = none) :
    (e.supersedeStaged f).take? n = none := by
  rw [supersedeStaged_other, h]
  intro g hg hn
  rw [← hn, (mem_of_stagedTake hg).2] at h
  cases h

theorem closeLive_take?_none {f : FeedId} {k : Take} {reason : CloseReason} {capture : Count} {n : Nat} {e : Engine}
    (h : e.take? n = none) : (e.closeLive f k reason capture).take? n = none := by
  have hcore : (e.closeLive f k reason capture).core? n = none := by
    rw [closeLive_core?, core?, h]
    split <;> rfl
  exact Option.map_eq_none_iff.mp hcore

/-! ## The new take becomes Live (R74) -/

theorem askState_sameWork (n : Nat) (sheet : HostAddr) (st : SheetState) (e : Engine) :
    e.SameWork (e.askState n sheet st) := (ask_sameWork ..).trans (ask_sameWork ..)

theorem placeLive_sameWork (f : FeedId) (t : Take) (e : Engine) :
    ((e.addTake t.placedLive).updPlaces f fun p => { p with live := some t.id }).SameWork (e.placeLive f t) :=
  (askState_sameWork ..).trans (ask_sameWork ..)

theorem placeLive_take {f : FeedId} {t : Take} {e : Engine} (h : e.take? t.id = none) :
    (e.placeLive f t).take? t.id = some t.placedLive :=
  ((placeLive_sameWork ..).take? _).trans (take?_addTake_self (t := t.placedLive) h)

theorem placeLive_other {f : FeedId} {t : Take} {n : Nat} (hn : n ≠ t.id) (e : Engine) :
    (e.placeLive f t).take? n = e.take? n :=
  ((placeLive_sameWork ..).take? _).trans (take?_addTake_of_ne (t := t.placedLive) hn e)

theorem placeLive_places (f : FeedId) (t : Take) (e : Engine) :
    (e.placeLive f t).places[f] = { e.places[f] with live := some t.id } := by
  rw [(placeLive_sameWork ..).places]
  exact upd_same ..

theorem placeLive_asked (f : FeedId) (t : Take) (e : Engine) : (e.placeLive f t).Asked .armed t :=
  (askState_asked .armed t _).grows (.ask (.refl _))

theorem placeLive_grows (f : FeedId) (t : Take) (e : Engine) : e.Grows (e.placeLive f t) :=
  ((Grows.refl e).same (e' := e.addTake t.placedLive) rfl rfl).updPlaces.askState.ask

/-! ## The new take becomes Staged (R74) -/

theorem placeStaged_sameWork (f : FeedId) (t : Take) (e : Engine) :
    (((e.supersedeStaged f).addTake { t with state := .staged }).updPlaces f fun p =>
      { p with staged := some t.id }).SameWork (e.placeStaged f t) := askState_sameWork ..

theorem placeStaged_take {f : FeedId} {t : Take} {e : Engine} (h : e.take? t.id = none) :
    (e.placeStaged f t).take? t.id = some { t with state := .staged } :=
  ((placeStaged_sameWork ..).take? _).trans
    (take?_addTake_self (t := { t with state := .staged }) (supersedeStaged_take?_none h))

theorem placeStaged_supersede {f : FeedId} {t : Take} {n : Nat} (hn : n ≠ t.id) (e : Engine) :
    (e.placeStaged f t).take? n = (e.supersedeStaged f).take? n :=
  ((placeStaged_sameWork ..).take? _).trans (take?_addTake_of_ne (t := { t with state := .staged }) hn _)

theorem placeStaged_places (f : FeedId) (t : Take) (e : Engine) :
    (e.placeStaged f t).places[f] = { e.places[f] with staged := some t.id } := by
  rw [(placeStaged_sameWork ..).places, updPlaces_places, upd_same, addTake_places, supersedeStaged_places]

theorem placeStaged_asked (f : FeedId) (t : Take) (e : Engine) : (e.placeStaged f t).Asked .staged t :=
  askState_asked .staged t _

theorem placeStaged_grows (f : FeedId) (t : Take) (e : Engine) : (e.supersedeStaged f).Grows (e.placeStaged f t) :=
  have hadded : (e.supersedeStaged f).Grows ((e.supersedeStaged f).addTake { t with state := .staged }) :=
    (Grows.refl _).same rfl rfl
  hadded.updPlaces.askState

/-- The new take Staged, the take that was Staged SUPERSEDED, and every other take as it was. -/
structure StagedBehind (f : FeedId) (t : Take) (e u : Engine) : Prop where
  take : u.take? t.id = some { t with state := .staged }
  asked : u.Asked .staged t
  superseded : ∀ g, e.stagedTake f = some g →
    u.take? g.id = some { g with state := .superseded } ∧ .sheetState g.id g.sheet .superseded ∈ u.port.writes
  others : ∀ n, n ≠ t.id → (∀ g, e.stagedTake f = some g → g.id ≠ n) → u.take? n = e.take? n

theorem id_ne_of_take? {e : Engine} {n m : Nat} {k : Take} (h : e.take? n = none) (hk : e.take? m = some k) : m ≠ n := by
  rintro rfl
  rw [h] at hk
  cases hk

theorem placeStaged_stagedBehind {f : FeedId} {t : Take} {e : Engine} (h : e.take? t.id = none) :
    e.StagedBehind f t (e.placeStaged f t) := by
  refine ⟨placeStaged_take h, placeStaged_asked .., fun g hg => ?_, fun n hn hothers => ?_⟩
  · obtain ⟨htake, hwrite⟩ := supersedeStaged_take hg
    rw [placeStaged_supersede (id_ne_of_take? h (mem_of_stagedTake hg).2)]
    exact ⟨htake, (placeStaged_grows ..).mem hwrite⟩
  · rw [placeStaged_supersede hn, supersedeStaged_other hothers]

/-! ## Which way the new take goes (R74) -/

variable {x : Front} {f : FeedId} {t k : Take} {e : Engine}

theorem placeTake_of_no_live (h : e.liveTake f = none) : e.placeTake x f t = e.placeLive f t := by
  rw [placeTake, h]

theorem placeTake_of_waits (hk : e.liveTake f = some k)
    (h : k.state ≠ .recording ∨ t.startMode ≠ .immediate ∨ e.places[f].deferredStop ≠ none) :
    e.placeTake x f t = e.placeStaged f t := by
  rw [placeTake, hk]
  dsimp only
  by_cases hsplit : k.state = .recording ∧ t.startMode = .immediate
  · have hdef : e.places[f].deferredStop ≠ none := by tauto
    rw [if_pos hsplit, if_pos (Option.isSome_iff_ne_none.mpr hdef)]
  · rw [if_neg hsplit]

theorem placeTake_of_split (hk : e.liveTake f = some k) (hrec : k.state = .recording) (himm : t.startMode = .immediate)
    (hdef : e.places[f].deferredStop = none) : e.placeTake x f t =
      if e.closingFull f then (e.placeStaged f t).deferStop f k .split
      else ((e.supersedeStaged f).closeLive f k .split x.refCount).placeLive f t := by
  rw [placeTake, hk]
  dsimp only
  rw [if_pos ⟨hrec, himm⟩, if_neg (by rw [hdef]; nofun)]

theorem deferStop_other {n : Nat} (hn : n ≠ k.id) (f : FeedId) (reason : CloseReason) (e : Engine) :
    (e.deferStop f k reason).take? n = e.take? n :=
  take?_updTake_of_ne (e.updPlaces f _) _ (fun _ => rfl) hn

/-- A split that is deferred: the new take is Staged, and the Live take counts the stop (R87). -/
theorem deferredSplit_takes (h : e.take? t.id = none) (hk : e.liveTake f = some k)
    (hne : ∀ g, e.stagedTake f = some g → e.places[f].live ≠ some g.id) :
    let u := (e.placeStaged f t).deferStop f k .split
    u.places[f] = { e.places[f] with staged := some t.id, deferredStop := some .split } ∧
      u.take? t.id = some { t with state := .staged } ∧ u.Asked .staged t ∧
      (∀ g, e.stagedTake f = some g → u.take? g.id = some { g with state := .superseded } ∧
        .sheetState g.id g.sheet .superseded ∈ u.port.writes) ∧
      u.take? k.id = some { k with deferredStops := k.deferredStops + 1 } ∧
      ∀ n, n ≠ t.id → n ≠ k.id → (∀ g, e.stagedTake f = some g → g.id ≠ n) → u.take? n = e.take? n := by
  intro u
  obtain ⟨hlive, hkt⟩ := mem_of_liveTake hk
  have hstaged := placeStaged_stagedBehind (f := f) h
  have hkid : k.id ≠ t.id := id_ne_of_take? h hkt
  have hgk : ∀ g, e.stagedTake f = some g → g.id ≠ k.id := fun g hg hgk => hne g hg (by rw [hlive, hgk])
  have hother : ∀ n, n ≠ k.id → u.take? n = (e.placeStaged f t).take? n := fun n hn => deferStop_other hn ..
  have hgrows : (e.placeStaged f t).Grows u := .deferStop (.refl _)
  have hplaces := deferStop_places f k .split (e.placeStaged f t)
  rw [placeStaged_places] at hplaces
  refine ⟨hplaces, (hother _ hkid.symm).trans hstaged.take, hstaged.asked.grows hgrows, fun g hg => ?_, ?_,
    fun n hnt hnk hg => (hother n hnk).trans (hstaged.others n hnt hg)⟩
  · obtain ⟨htake, hwrite⟩ := hstaged.superseded g hg
    exact ⟨(hother _ (hgk g hg)).trans htake, hgrows.mem hwrite⟩
  · exact (deferStop_take ((hstaged.others k.id hkid hgk).trans hkt) .split).1

/-- The takes after a split with room for END. -/
theorem split_takes (h : e.take? t.id = none) (hk : e.liveTake f = some k)
    (hne : ∀ g, e.stagedTake f = some g → e.places[f].live ≠ some g.id)
    (hroom : ((e.feedRecords f).filter fun r => !r.body.isFrame).length < eventPlaces) (capture : Count) :
    let u := ((e.supersedeStaged f).closeLive f k .split capture).placeLive f t
    (∀ g, e.stagedTake f = some g → u.take? g.id = some { g with state := .superseded } ∧
        .sheetState g.id g.sheet .superseded ∈ u.port.writes) ∧
      u.take? k.id = some ((closed .split capture k).withEnd e.nextSeq) ∧
      ∀ n, n ≠ t.id → n ≠ k.id → (∀ g, e.stagedTake f = some g → g.id ≠ n) → u.take? n = e.take? n := by
  intro u
  obtain ⟨hlive, hkt⟩ := mem_of_liveTake hk
  obtain ⟨hrecords, hseq⟩ := supersedeStaged_records f e
  obtain ⟨htakes, -⟩ := closeLive_of_room (e := e.supersedeStaged f) (by rw [hrecords]; exact hroom) k .split capture
  rw [hseq] at htakes
  have hgk : ∀ g, e.stagedTake f = some g → g.id ≠ k.id := fun g hg hgk => hne g hg (by rw [hlive, hgk])
  have hother : ∀ n, n ≠ t.id → n ≠ k.id → u.take? n = (e.supersedeStaged f).take? n := fun n hnt hnk =>
    (placeLive_other hnt _).trans ((htakes n).trans (take?_updTake_of_ne _ _ (fun _ => by rfl) hnk))
  have hgrows : (e.supersedeStaged f).Grows u :=
    (Grows.closeLive (.refl (e.supersedeStaged f))).trans (placeLive_grows f t _)
  refine ⟨fun g hg => ?_, ?_, fun n hnt hnk hg => (hother n hnt hnk).trans (supersedeStaged_other hg)⟩
  · obtain ⟨htake, hwrite⟩ := supersedeStaged_take hg
    exact ⟨(hother _ (id_ne_of_take? h (mem_of_stagedTake hg).2) (hgk g hg)).trans htake, hgrows.mem hwrite⟩
  · exact (placeLive_other (id_ne_of_take? h hkt) _).trans ((htakes _).trans
      (take?_updTake_self _ _ (fun _ => by rfl) ((supersedeStaged_other hgk).trans hkt)))

/-- The places after a split. -/
theorem split_places (capture : Count) :
    (((e.supersedeStaged f).closeLive f k .split capture).placeLive f t).places[f] = { e.places[f] with
      live := some t.id
      staged := if (e.stagedTake f).isSome then none else e.places[f].staged
      closing := e.places[f].closing ++ [k.id] } := by
  rw [placeLive_places, closeLive_places, supersedeStaged_places]

/-- A split leaves no Staged take. -/
theorem split_stagedTake (capture : Count) (hnew : e.places[f].staged ≠ some t.id) :
    (((e.supersedeStaged f).closeLive f k .split capture).placeLive f t).stagedTake f = none := by
  have hplaces := split_places (e := e) (f := f) (k := k) (t := t) capture
  have hgone : ∀ m, m ≠ t.id → e.take? m = none →
      (((e.supersedeStaged f).closeLive f k .split capture).placeLive f t).take? m = none := fun m hm hnone => by
    rw [placeLive_other hm, closeLive_take?_none (supersedeStaged_take?_none hnone)]
  generalize ((e.supersedeStaged f).closeLive f k .split capture).placeLive f t = u at hplaces hgone ⊢
  rw [stagedTake, hplaces]
  cases hs : e.stagedTake f with
  | some g => rfl
  | none =>
    cases hm : e.places[f].staged with
    | none => rfl
    | some m => exact hgone m (fun h => hnew (by rw [hm, h])) (by rwa [stagedTake, hm] at hs)

end Engine

/-- Settles O46. -/
theorem armPlacesTake : Obligations.ArmPlacesTake := by
  intro x f t e hnew hne
  have h : e.take? t.id = none := List.find?_eq_none.mpr fun k hk => by simpa using hnew k hk
  have hlive : t.placedLive = { t with
      state := .armed, startMode := if t.startMode = .contiguous then .immediate else t.startMode } := by
    unfold Take.placedLive StartMode.asLive
    cases t.startMode <;> rfl
  refine ⟨fun hnone => ?_, fun k hk => ⟨fun hwaits => ?_, fun hrec himm hdef => ⟨fun hlen => ?_, fun hlen => ?_⟩⟩⟩
  · rw [Engine.placeTake_of_no_live hnone, ← hlive]
    exact ⟨Engine.placeLive_places .., ⟨Engine.placeLive_asked .., Engine.placeLive_take h⟩,
      fun n hn => Engine.placeLive_other hn e⟩
  · rw [Engine.placeTake_of_waits hk hwaits]
    have hstaged := Engine.placeStaged_stagedBehind (f := f) h
    exact ⟨Engine.placeStaged_places .., ⟨hstaged.asked, hstaged.take⟩, hstaged.superseded,
      fun n hn _ hg => hstaged.others n hn hg⟩
  · rw [Engine.placeTake_of_split hk hrec himm hdef, if_pos (Engine.closingFull_iff.mpr hlen)]
    obtain ⟨hplaces, htake, hasked, hsuperseded, hcounted, hothers⟩ := Engine.deferredSplit_takes h hk hne
    exact ⟨hplaces, ⟨hasked, htake⟩, hsuperseded, hcounted,
      fun n hn hnk hg => hothers n hn (fun hnk' => hnk (by rw [hnk'])) hg⟩
  · rw [Engine.placeTake_of_split hk hrec himm hdef, if_neg (by rw [Engine.closingFull_iff]; omega), ← hlive]
    have hplaces := Engine.split_places (e := e) (f := f) (k := k) (t := t) x.refCount
    refine ⟨by rw [hplaces], by rw [hplaces]; exact hdef, Engine.split_stagedTake x.refCount, by rw [hplaces],
      ⟨Engine.placeLive_asked .., Engine.placeLive_take (Engine.closeLive_take?_none (Engine.supersedeStaged_take?_none h))⟩,
      (Engine.closeLive_asked ..).grows (Engine.placeLive_grows ..), fun hroom => ?_⟩
    obtain ⟨hsuperseded, hclosed, hothers⟩ := Engine.split_takes h hk hne hroom x.refCount
    exact ⟨hsuperseded, fun n hn hnk hg => hothers n hn (fun hnk' => hnk (by rw [hnk'])) hg, hclosed⟩

end Sys2Proof.Machine
end


section
/-! A new take that is Live and ARMED stays as it is while the blocks act on their own: nothing the Index Writer, the Mover
or the Reducer finds in the step concerns it (R74, R81). -/

namespace Sys2Proof.Machine

/-- The take has no records, has not begun, and is ARMED with a start of its own. -/
structure Take.Unbegun (t : Take) : Prop where
  queue : t.queue = []
  geom : t.geom = none
  state : t.state = .armed
  mode : t.startMode ≠ .contiguous
  refeed : t.refeed = none

theorem Take.Unbegun.mfb {t : Take} (h : t.Unbegun) : t.mfb = 0 := by
  rw [Take.mfb, h.geom]
  rfl

theorem Take.Unbegun.asLive {t : Take} (h : t.Unbegun) : t.startMode.asLive = t.startMode := by
  have hmode := h.mode
  cases hm : t.startMode with
  | contiguous => exact absurd hm hmode
  | immediate => rfl
  | atTime => rfl
  | atTimecode => rfl

namespace Engine

/-- `K` is the one context of its number. -/
def Holds (K : Take) (e : Engine) : Prop := K ∈ e.takes ∧ ∀ k ∈ e.takes, k.id = K.id → k = K

namespace Holds

variable {K : Take} {e : Engine}

theorem same {e' : Engine} (h : Holds K e) (ht : e'.takes = e.takes) : Holds K e' := by
  unfold Holds
  rw [ht]
  exact h

theorem eq_of_take? (h : Holds K e) {n : Nat} {t : Take} (ht : e.take? n = some t) (hid : t.id = K.id) : t = K :=
  h.2 t (List.mem_of_find?_eq_some ht) hid

theorem take? (h : Holds K e) : e.take? K.id = some K := by
  cases ht : e.take? K.id with
  | none => exact absurd (List.find?_eq_none.mp ht K h.1) (by simp)
  | some t => rw [h.eq_of_take? ht (id_of_take? ht)]

/-- A change of a take leaves `K` alone when it is another's, or no change of `K`. -/
theorem updTake {n : Nat} {g : Take → Take} (h : Holds K e) (hg : n = K.id → g K = K)
    (hid : ∀ k, (g k).id = k.id := by intro; rfl) :
    Holds K (e.updTake n g) := by
  have hK : (if K.id = n then g K else K) = K := by
    split
    · rename_i hn
      exact hg hn.symm
    · rfl
  refine ⟨List.mem_map.mpr ⟨K, h.1, hK⟩, fun k' hk' hk'id => ?_⟩
  obtain ⟨k, hk, rfl⟩ := List.mem_map.mp hk'
  have hkid : k.id = K.id := by
    split at hk'id
    · exact (hid k).symm.trans hk'id
    · exact hk'id
  rw [h.2 k hk hkid]
  exact hK

/-- A change of another take. -/
theorem updOther {n : Nat} {g : Take → Take} (h : Holds K e) (hn : n ≠ K.id)
    (hid : ∀ k, (g k).id = k.id := by intro; rfl) : Holds K (e.updTake n g) := h.updTake (fun hn' => absurd hn' hn) hid

theorem foldl {α : Type} {g : Engine → α → Engine} (hg : ∀ {e b}, Holds K e → Holds K (g e b)) (l : List α)
    (h : Holds K e) : Holds K (l.foldl g e) := by
  induction l generalizing e with
  | nil => exact h
  | cons b l ih => exact ih (hg h)

/-! ### Asking and withdrawing -/

theorem asksOnly {u : Engine} (h : Holds K e) (hu : e.AsksOnly u) : Holds K u := h.same hu.sameWork.takes

theorem ask {w : WriteRequest} (h : Holds K e) : Holds K (e.ask w) := h.asksOnly (ask_asksOnly ..)

theorem askState {n : Nat} {sheet : HostAddr} {st : SheetState} (h : Holds K e) : Holds K (e.askState n sheet st) :=
  h.ask.ask

theorem raise {x : Front} {f : FeedId} {c : Cause} (h : Holds K e) : Holds K (e.raise x f c) :=
  h.asksOnly (setCauses_asksOnly ..)

theorem syncConditions {x : Front} {f : FeedId} (h : Holds K e) : Holds K (e.syncConditions x f) :=
  h.asksOnly (setCauses_asksOnly ..)

theorem withdrawWriter {n : Nat} (h : Holds K e) : Holds K (e.withdrawWriter n) := by
  rw [Engine.withdrawWriter_eq]
  exact h.same rfl

theorem withdrawAtSplit {kind : Exhaustion} {t : Take} (h : Holds K e) : Holds K (e.withdrawAtSplit kind t) := by
  rw [Engine.withdrawAtSplit_eq]
  exact h.same rfl

theorem bumpSeq (h : Holds K e) : Holds K e.bumpSeq := h.same rfl

/-! ### Frames leave the pool -/

theorem withdrawMover {i : SlotId} (h : Holds K e) : Holds K (e.withdrawMover i) := by
  unfold Engine.withdrawMover
  split
  · exact h
  · split
    · exact h.same rfl
    · exact h
  · split
    · exact h.same rfl
    · exact h

theorem withdrawCheck {i : SlotId} (h : Holds K e) : Holds K (e.withdrawCheck i) := by
  unfold Engine.withdrawCheck
  split
  · split
    · exact h.same rfl
    · exact h
  · exact h

theorem abandonReduction {i : SlotId} (h : Holds K e) : Holds K (e.abandonReduction i) := by
  unfold Engine.abandonReduction
  split
  · split
    · exact h.same rfl
    · exact h
  · exact h

theorem abandonSlot {i : SlotId} (h : Holds K e) : Holds K (e.abandonSlot i) := by
  have hleft := h.withdrawMover (i := i) |>.withdrawCheck (i := i) |>.abandonReduction (i := i)
  unfold Engine.abandonSlot
  dsimp only
  split
  · exact hleft.same rfl
  · exact hleft.same rfl

theorem moveFrame {n : Nat} {browseOn : Bool} {p : SlotId × Nat} (h : Holds K e) : Holds K (e.moveFrame n browseOn p) :=
  (h.withdrawMover (i := p.1) |>.withdrawCheck (i := p.1) |>.abandonReduction (i := p.1)).same rfl

/-! ### Records of other takes -/

theorem queueEvent {n : Nat} {b : RecordBody} (h : Holds K e) (hn : n ≠ K.id) : Holds K (e.queueEvent n b) := by
  unfold Engine.queueEvent
  split
  · exact h
  · split
    · exact .bumpSeq (h.updOther hn)
    · exact .bumpSeq (h.updOther hn)

theorem queueBehind {m n : Nat} {bs : List RecordBody} (h : Holds K e) (hn : n ≠ K.id) : Holds K (e.queueBehind m n bs) := by
  unfold Engine.queueBehind
  split
  · exact h
  · dsimp only
    refine same (e := e.updTake n _) ?_ rfl
    exact h.updOther hn

variable (hK : K.Unbegun)
include hK

/-- The newest event record, which makes room, stands in a queue that is not empty. -/
theorem makeRoom {f : FeedId} (h : Holds K e) : Holds K (e.makeRoom f) := by
  unfold Engine.makeRoom Engine.removeNewest
  split
  · split
    · exact h
    · split
      · exact h
      · rename_i t ht
        have hid : t.id ≠ K.id := by
          intro hid
          have hrecord := List.find?_some ht
          rw [h.2 t (List.mem_of_find?_eq_some ht) hid, hK.queue] at hrecord
          simp at hrecord
        refine .updOther ?_ hid
        split
        · exact h.withdrawWriter
        · exact h
  · exact h

theorem queueEnd {f : FeedId} {n : Nat} (h : Holds K e) (hn : n ≠ K.id) : Holds K (e.queueEnd f n) :=
  .bumpSeq (.updOther (h.makeRoom hK) hn)

theorem queueStart {f : FeedId} {n : Nat} {r : StartRecord} (h : Holds K e) (hn : n ≠ K.id) :
    Holds K (e.queueStart f n r) :=
  .bumpSeq (.updOther (h.makeRoom hK) hn)

/-- Settlement fills placeholders, of which `K` has none. -/
theorem trySettle {i : SlotId} (h : Holds K e) : Holds K (e.trySettle i) := by
  have hempty : ∀ g, ({ K with queue := mapQueue g K.queue } : Take) = K := by
    intro g
    obtain ⟨hqueue, -⟩ := hK
    cases K
    subst hqueue
    rfl
  unfold Engine.trySettle
  split
  · exact h
  · split
    · exact h
    · exact .updTake (h.same rfl) fun _ => hempty _

theorem decideBrowse {i : SlotId} {o : BrowseOutcome} (h : Holds K e) : Holds K (e.decideBrowse i o) :=
  .trySettle hK (h.same rfl)

/-! ### Other takes begin and close -/

theorem beginTake {x : Front} {f : FeedId} {n : Nat} {first : Bool} {c : Count} {tc : Timecode} (h : Holds K e)
    (hn : n ≠ K.id) : Holds K (e.beginTake x f n first c tc) := by
  unfold Engine.beginTake
  dsimp only
  split
  · exact h
  · refine .ask (.raise (.askState (.updOther (.queueBehind (.queueStart hK ?_ hn) hn) hn)))
    exact h.updOther hn

/-- `K` is ARMED, so its promotion under its own start mode changes nothing of it. -/
theorem promote {f : FeedId} {t : Take} {mode : StartMode} (h : Holds K e) (hmode : t.id = K.id → mode = K.startMode) :
    Holds K (e.promote f t mode) := by
  refine .ask (.askState (.updTake (h.same rfl) fun hid => ?_))
  have hstate := hK.state
  rw [hmode hid, ← hstate]

theorem closeLive {f : FeedId} {t : Take} {reason : CloseReason} {c : Count} (h : Holds K e) (hn : t.id ≠ K.id) :
    Holds K (e.closeLive f t reason c) :=
  .ask (.askState (.queueEnd hK (.updOther (h.same rfl) hn) hn))

omit hK in
theorem deferStop {f : FeedId} {t : Take} {reason : CloseReason} (h : Holds K e) (hn : t.id ≠ K.id) :
    Holds K (e.deferStop f t reason) :=
  .updOther (h.same rfl) hn

omit hK in
theorem discardTail {kind : Exhaustion} {n : Nat} (h : Holds K e) (hn : n ≠ K.id) : Holds K (e.discardTail kind n) := by
  unfold Engine.discardTail
  split
  · exact h
  · rename_i t ht
    dsimp only
    have hdiscarded := fun g hid => foldl (g := Engine.abandonSlot) abandonSlot (frameSlots (e.tailRecords kind t))
      ((h.withdrawAtSplit (kind := kind) (t := t)).updOther (n := n) (g := g) hn hid)
    split
    · exact hdiscarded _ fun _ => rfl
    · exact .ask (hdiscarded _ fun _ => rfl)

omit hK in
theorem moveRecords {kind : Exhaustion} {t g : Take} (h : Holds K e) (ht : t.id ≠ K.id) (hg : g.id ≠ K.id) :
    Holds K (e.moveRecords kind t g) :=
  .updOther (.updOther h.withdrawAtSplit ht) hg

/-- A close FRAME_COUNT promotes the Staged take, and that may be `K` (R78). -/
theorem promoteAfterClose {f : FeedId} (h : Holds K e) : Holds K (e.promoteAfterClose f .frameCount) := by
  unfold Engine.promoteAfterClose
  split
  · exact h
  · rename_i g hg
    refine h.promote hK fun hid => ?_
    rw [h.eq_of_take? (mem_of_stagedTake hg).2 hid, hK.asLive]

theorem rollover {x : Front} {f : FeedId} {kind : Exhaustion} {n : Nat} {g : Take} (h : Holds K e) (hn : n ≠ K.id)
    (hg : g.id ≠ K.id) : Holds K (e.rollover x f kind n g) := by
  unfold Engine.rollover
  split
  · exact h
  · rename_i t ht
    have ht : t.id ≠ K.id := by rwa [id_of_take? ht]
    dsimp only
    have hmoved := fun first c tc => foldl (g := Engine.moveFrame g.id g.browseOn) moveFrame
      (frameSlots (e.tailRecords kind t)).zipIdx (beginTake (x := x) (f := f) (n := g.id) (first := first) (c := c) (tc := tc)
        hK (same (e' := (e.moveRecords kind t g).updPlaces f fun p => { p with live := some g.id, staged := none })
          (h.moveRecords (kind := kind) ht hg) rfl) hg)
    split
    · split
      · exact (hmoved _ _ _).deferStop hg
      · exact ((hmoved _ _ _).closeLive hK hg).promoteAfterClose hK
    · exact hmoved _ _ _

/-- A Staged CONTIGUOUS take is not `K`; another Staged take is promoted under its own start mode (R94, R95). -/
theorem closeExhausted {x : Front} {f : FeedId} {kind : Exhaustion} {t : Take} (h : Holds K e) (hn : t.id ≠ K.id) :
    Holds K (e.closeExhausted x f kind t) := by
  unfold Engine.closeExhausted
  dsimp only
  split
  · exact (h.closeLive hK hn).discardTail hn
  · rename_i g hg
    have hsame : g.id = K.id → g = K := h.eq_of_take? (mem_of_stagedTake hg).2
    split
    · rename_i hmode
      exact (h.closeLive hK hn).rollover hK hn fun hid => hK.mode (hsame hid ▸ hmode)
    · exact ((h.closeLive hK hn).discardTail hn).promote hK fun hid => by rw [hsame hid]

theorem findExhausted {x : Front} {kind : Exhaustion} {n : Nat} (h : Holds K e) (hn : n ≠ K.id) :
    Holds K (e.findExhausted x kind n) := by
  unfold Engine.findExhausted
  split
  · exact h
  · rename_i t ht
    have ht : t.id ≠ K.id := by rwa [id_of_take? ht]
    dsimp only
    have hfound : ∀ p, Holds K (((e.updTake n fun k => { k with
        exhausted := some kind
        essenceStarved := false
        indexStarved := false
        refeed := none }).withdrawReads p).syncConditions x t.feed) := fun p => .syncConditions (.same (h.updOther hn) rfl)
    split
    · split
      · exact h.discardTail hn
      · exact h
    · split
      · exact (hfound _).discardTail hn
      · split
        · exact hfound _
        · split
          · exact (hfound _).deferStop ht
          · exact (hfound _).closeExhausted hK ht

/-! ### The blocks' acts -/

theorem starveEssence {x : Front} {t : Take} (h : Holds K e) (hn : t.id ≠ K.id) : Holds K (e.starveEssence x t) := by
  unfold Engine.starveEssence
  split
  · exact h.findExhausted hK hn
  · split
    · exact h
    · exact .syncConditions (.queueEvent (h.updOther hn) hn)

/-- A frame of a take that has not begun needs no room: its check fits. -/
theorem moverCheck {x : Front} {i : SlotId} (h : Holds K e) : Holds K (e.moverCheck x i false) := by
  have hidle : Holds K (e.setMover .idle) := h.same rfl
  unfold Engine.moverCheck
  split
  · exact hidle
  · rename_i s t hst
    obtain ⟨s', -, ht⟩ := Option.bind_eq_some_iff.mp hst
    obtain ⟨t', ht', hpair⟩ := Option.map_eq_some_iff.mp ht
    obtain ⟨rfl, rfl⟩ := Prod.mk.inj hpair
    by_cases hid : t'.id = K.id
    · have hfits : checkRoom 32 t'.essence ((s'.position + 1) * t'.mfb) = .fits := by
        rw [h.eq_of_take? ht' hid, hK.mfb]
        exact if_pos (Nat.zero_le _)
      rw [hfits]
      exact h.same rfl
    · split
      · exact h.same rfl
      · exact h.same rfl
      · exact hidle.starveEssence hK hid
      · exact hidle.findExhausted hK hid

theorem moverStep {x : Front} {e' : Engine} (h : Holds K e) (he : e.moverStep x = some e') : Holds K e' := by
  unfold Engine.moverStep at he
  split at he
  · obtain ⟨p, -, rfl⟩ := Option.map_eq_some_iff.mp he
    exact h.same rfl
  · cases he
    exact h.moverCheck hK
  · cases he

theorem refeedStep {x : Front} {e' : Engine} (h : Holds K e) (he : e.refeedStep x = some e') : Holds K e' := by
  obtain ⟨t, ht, rfl⟩ := Option.map_eq_some_iff.mp he
  have hid : t.id ≠ K.id := by
    intro hid
    have hstage := List.find?_some ht
    rw [h.2 t (List.mem_of_find?_eq_some ht) hid, hK.refeed] at hstage
    cases hstage
  have hset : ∀ st, Holds K (e.setRefeed t.id st) := fun st => h.updOther hid
  unfold Engine.refeedCheck
  split
  · exact hset _
  · split
    · exact .syncConditions (.queueEvent (h.updOther hid) hid)
    · exact .updOther (h.same rfl) hid
    · exact hset _
    · exact (hset _).findExhausted hK hid

theorem reducerStep {x : Front} {e' : Engine} (h : Holds K e) (he : e.reducerStep x = some e') : Holds K e' := by
  unfold Engine.reducerStep at he
  split at he
  · cases he
    have hfree : Holds K (e.setCheck none) := h.same rfl
    unfold Engine.reducerCheck
    split
    · exact hfree
    · split
      · exact h.same rfl
      · exact h.same rfl
      · exact hfree.decideBrowse hK
      · exact hfree.decideBrowse hK
  · cases he
  · split at he
    · cases he
    · obtain ⟨p, -, rfl⟩ := Option.map_eq_some_iff.mp he
      exact h.same rfl

/-- A take without records is passed over by the Index Writer (R115). -/
theorem writerAct {x : Front} {t : Take} (h : Holds K e) (ht : t.id = K.id → t = K) :
    Holds K (e.writerAct x t (e.writerFinding t false)) := by
  have hfree : Holds K (e.setInHand none) := h.same rfl
  by_cases hid : t.id = K.id
  · have hpass : e.writerFinding t false = .pass := by
      rw [ht hid, Engine.writerFinding, hK.queue]
    rw [hpass]
    exact hfree
  · cases e.writerFinding t false with
    | pass => exact hfree
    | write => exact h.same rfl
    | read n => exact h.same rfl
    | starve => exact .syncConditions (hfree.updOther hid)
    | exhaust => exact hfree.findExhausted hK hid

omit hK in
theorem eq_of_mem_serviceOrder (h : Holds K e) {t : Take} (ht : t ∈ e.serviceOrder) (hid : t.id = K.id) : t = K := by
  refine h.2 t ?_ hid
  unfold Engine.serviceOrder at ht
  split at ht
  · exact ht
  · rcases List.mem_append.mp ht with ht | ht
    · exact List.mem_of_mem_filter ht
    · exact List.mem_of_mem_filter ht

theorem writerStep {x : Front} {e' : Engine} (h : Holds K e) (he : e.writerStep x = some e') : Holds K e' := by
  unfold Engine.writerStep at he
  split at he
  · cases he
    unfold Engine.writerCheck
    split
    · exact h.same rfl
    · rename_i t ht
      exact h.writerAct hK (h.eq_of_take? ht)
  · cases he
  · obtain ⟨t, ht, rfl⟩ := Option.map_eq_some_iff.mp he
    exact h.writerAct hK (h.eq_of_mem_serviceOrder (List.mem_of_find?_eq_some ht))

theorem blockStep {x : Front} {e' : Engine} (h : Holds K e) (he : e.blockStep x = some e') : Holds K e' := by
  unfold Engine.blockStep at he
  rcases Option.or_eq_some_iff.mp he with he | ⟨-, he⟩
  · exact h.refeedStep hK he
  · rcases Option.or_eq_some_iff.mp he with he | ⟨-, he⟩
    · exact h.moverStep hK he
    · rcases Option.or_eq_some_iff.mp he with he | ⟨-, he⟩
      · exact h.reducerStep hK he
      · exact h.writerStep hK he

end Holds

end Engine

/-- With a quiet Attention Unit and a busy link, the acts of a step leave a new ARMED take as it is, and only add to the
write list. -/
theorem State.settle_holds {K : Take} (hK : K.Unbegun) {s : State} (hq : s.front.attention.quiet = true)
    (hb : s.linkBusy = true) (h : s.eng.Holds K) : s.eng.Grows s.settle.eng ∧ s.settle.eng.Holds K := by
  refine (State.settleFor_of_quiet (P := fun e => s.eng.Grows e ∧ e.Holds K) hq
    (fun e e' he hstep => ⟨he.1.blockStep hstep, he.2.blockStep hK hstep⟩) (fun e e' he hstep => ?_) ⟨.refl _, h⟩ _).2
  rw [Engine.arbiterStep_of_busy _ (by rw [he.1.busy]; exact hb)] at hstep
  cases hstep

end Sys2Proof.Machine
end


section
/-! ARM when its reads come in: the checks of the sheet address, of the sheet's header and of its index entries, and the
take it makes (R68, R69, R73, R147, R148). -/

namespace Sys2Proof.Machine

/-! ## Fields of what is read -/

theorem fieldAt_lt (bytes : List Byte) (off len : Nat) : fieldAt bytes off len < 256 ^ len := by
  rw [fieldAt, leNat_take]
  exact Nat.mod_lt _ (Nat.pow_pos (by decide))

/-- A field taken up into a word of its width. -/
theorem toNat_ofNat_fieldAt {w len : Nat} (h : 256 ^ len = 2 ^ w) (bytes : List Byte) (off : Nat) :
    (BitVec.ofNat w (fieldAt bytes off len)).toNat = fieldAt bytes off len := by
  rw [BitVec.toNat_ofNat, Nat.mod_eq_of_lt (h ▸ fieldAt_lt bytes off len)]

theorem fieldAt_of_length {bytes : List Byte} {n : Nat} (h : bytes.length = n) : fieldAt bytes 0 n = leNat bytes := by
  rw [fieldAt, List.drop_zero, List.take_of_length_le h.le]

/-! ### The mode codes of a sheet (section 11.8) -/

/-- A start mode's code is 1 to 4, and gives the mode it stands for. -/
theorem parseStartMode_cases (n : Nat) : (¬(1 ≤ n ∧ n ≤ 4) ∧ parseStartMode n = none) ∨ ∃ m, parseStartMode n = some m ∧
    (1 ≤ n ∧ n ≤ 4) ∧ (n, m) ∈ [(1, StartMode.immediate), (2, .atTime), (3, .atTimecode), (4, .contiguous)] := match n with
  | 0 => .inl ⟨by decide, rfl⟩
  | 1 | 2 | 3 | 4 => .inr ⟨_, rfl, by decide, by decide⟩
  | n + 5 => .inl ⟨by omega, rfl⟩

/-- A stop mode's code is 1 to 4, and gives the mode it stands for. -/
theorem parseStopMode_cases (n : Nat) : (¬(1 ≤ n ∧ n ≤ 4) ∧ parseStopMode n = none) ∨ ∃ m, parseStopMode n = some m ∧
    (1 ≤ n ∧ n ≤ 4) ∧ (n, m) ∈ [(1, StopMode.onRequest), (2, .atTime), (3, .atTimecode), (4, .afterFrames)] := match n with
  | 0 => .inl ⟨by decide, rfl⟩
  | 1 | 2 | 3 | 4 => .inr ⟨_, rfl, by decide, by decide⟩
  | n + 5 => .inl ⟨by omega, rfl⟩

/-- A sheet header with a mode code that is unknown (R178). -/
theorem parseSheet_of_unknown {bytes : List Byte} (h : ¬(1 ≤ fieldAt bytes 5 1 ∧ fieldAt bytes 5 1 ≤ 4) ∨
    ¬(1 ≤ fieldAt bytes 6 1 ∧ fieldAt bytes 6 1 ≤ 4)) : parseSheet bytes = none := by
  unfold parseSheet
  rcases parseStartMode_cases (fieldAt bytes 5 1) with ⟨-, hstart⟩ | ⟨m, hstart, hcode, -⟩
  · rw [hstart]
  · rcases parseStopMode_cases (fieldAt bytes 6 1) with ⟨-, hstop⟩ | ⟨k, -, hcode', -⟩
    · rw [hstop]
      split
      · rename_i h; cases h
      · rfl
    · exact absurd h (by tauto)

/-- A sheet header with known mode codes: its fields at their offsets, the posted counts clamped (R68, R71). -/
theorem parseSheet_of_known {bytes : List Byte} (hstart : 1 ≤ fieldAt bytes 5 1 ∧ fieldAt bytes 5 1 ≤ 4)
    (hstop : 1 ≤ fieldAt bytes 6 1 ∧ fieldAt bytes 6 1 ≤ 4) : ∃ h, parseSheet bytes = some h ∧
      h.label.toNat = fieldAt bytes 0 4 ∧ (h.browse = true ↔ fieldAt bytes 4 1 ≠ 0) ∧
      (fieldAt bytes 5 1, h.startMode) ∈ [(1, StartMode.immediate), (2, .atTime), (3, .atTimecode), (4, .contiguous)] ∧
      (fieldAt bytes 6 1, h.stopMode) ∈ [(1, StopMode.onRequest), (2, .atTime), (3, .atTimecode), (4, .afterFrames)] ∧
      h.startParam.toNat = fieldAt bytes 8 8 ∧ h.stopParam.toNat = fieldAt bytes 16 8 ∧
      h.essencePosted = min 32 (fieldAt bytes 24 1) ∧ h.browsePosted = min 32 (fieldAt bytes 25 1) ∧
      h.indexPosted = min 8 (fieldAt bytes 26 1) := by
  rcases parseStartMode_cases (fieldAt bytes 5 1) with ⟨hno, -⟩ | ⟨m, hm, -, hmode⟩
  · exact absurd hstart hno
  rcases parseStopMode_cases (fieldAt bytes 6 1) with ⟨hno, -⟩ | ⟨k, hk, -, hkode⟩
  · exact absurd hstop hno
  unfold parseSheet
  rw [hm, hk]
  refine ⟨_, rfl, toNat_ofNat_fieldAt (by norm_num) .., bne_iff_ne, hmode, hkode, toNat_ofNat_fieldAt (by norm_num) ..,
    toNat_ofNat_fieldAt (by norm_num) .., ?_, ?_, ?_⟩
  · simp only [parsePosted, fieldAt_drop]
  · simp only [parsePosted, fieldAt_drop]
  · simp only [parsePosted, fieldAt_drop]

/-- An extent entry is good when its address is a multiple of 4,096 and it has pages (R69). -/
theorem entryGood_iff (bytes : List Byte) :
    entryGood (parseEntry bytes) = true ↔ fieldAt bytes 0 8 % 4096 = 0 ∧ fieldAt bytes 8 4 ≠ 0 := by
  unfold entryGood parseEntry
  rw [toNat_ofNat_fieldAt (by norm_num), Bool.and_eq_true, beq_iff_eq, decide_eq_true_iff, Nat.one_le_iff_ne_zero]

/-! ## A read of the ARM comes in -/

/-- The Attention Unit's state once feed `f`'s ARM is answered. -/
def Attention.armAnswered (f : FeedId) (res : Result) (u : Attention) : Attention := { u with
  service := none
  pending := upd u.pending f fun _ => none
  answers := upd u.answers f fun a => ⟨a.taken + 1, some .arm, some res, 0⟩ }

/-- By the step `out` feed `f`'s ARM is answered `res`, and no take has changed (R73). -/
def State.ArmFails (f : FeedId) (s : State) (out : Host.Outcome State Fault Refusal) (res : Result) : Prop :=
  ∃ t, out = .next t ∧ t.front.attention = s.front.attention.armAnswered f res ∧ t.eng.takes = s.eng.takes ∧
    t.eng.places = s.eng.places ∧ t.eng.port.reads = s.eng.port.reads

/-- By the step `out` the ARM in service goes on as `v`, and asks the read `q` (R73). -/
def State.ArmAsks (s : State) (out : Host.Outcome State Fault Refusal) (v : Service) (q : ReadRequest) : Prop :=
  ∃ t, out = .next t ∧ t.front.attention = { s.front.attention with service := some v } ∧
    t.eng.port.reads = s.eng.port.reads ++ [q] ∧ t.eng.port.outstanding = none ∧ t.eng.takes = s.eng.takes ∧
    t.eng.places = s.eng.places

section
variable {f : FeedId} {s : State} {out : Host.Outcome State Fault Refusal}
variable (honly : s.front.attention.onlyFeed f = true) (hw : s.eng.busyWaiting = true)
include honly hw

theorem State.armFails_of_next {u : State} {res : Result} (hout : out = .next (u.armFails f res).settle)
    (ha : u.front.attention = s.front.attention) (hu : s.eng.SameWork u.eng)
    (hreads : u.eng.port.reads = s.eng.port.reads) : s.ArmFails f out res := by
  have hasks : u.eng.AsksOnly (u.armFails f res).eng := State.conclude_asksOnly f .arm res 0 u.endService
  have hquiet : (u.armFails f res).front.attention.quiet = true :=
    State.conclude_quiet (s := u.endService) (by rw [← ha] at honly; exact honly) .arm res 0
  rw [State.settle_of_busyWaiting hquiet ((hu.trans hasks.sameWork).sameWaits.busyWaiting hw)] at hout
  refine ⟨_, hout, ?_, hasks.sameWork.takes.trans hu.takes, hasks.sameWork.places.trans hu.places,
    hasks.reads.trans hreads⟩
  rw [← ha]
  rfl

/-- The read has ended, and the ARM fails. -/
theorem State.armFails_of_read {res : Result} (hout : out = .next (s.endRead.armFails f res).settle) :
    s.ArmFails f out res :=
  State.armFails_of_next honly hw hout rfl ⟨rfl, rfl, rfl, rfl, rfl, rfl, rfl, rfl⟩ rfl

/-- The read has ended, and the ARM asks its next one. -/
theorem State.armAsks_of_read (harm : s.front.attention.pending[f] = some ⟨.arm, true⟩) {v : Service} {q : ReadRequest}
    (hout : out = .next (s.endRead.serveReading v q).settle) : s.ArmAsks out v q := by
  simp only [Attention.onlyFeed, Bool.and_eq_true, List.all_eq_true, Bool.or_eq_true, beq_iff_eq,
    Option.isNone_iff_eq_none] at honly
  have hquiet : (s.endRead.serveReading v q).front.attention.quiet = true := by
    simp only [Attention.quiet, Bool.and_eq_true, Bool.or_eq_true, List.all_eq_true, bne_iff_ne]
    refine ⟨.inl rfl, fun g _ hg => ?_⟩
    have hg : s.front.attention.pending[g] = some ⟨.refill, true⟩ := hg
    rcases honly.2 g (List.mem_finRange g) with rfl | hnone
    · rw [harm] at hg
      cases hg
    · rw [hnone] at hg
      cases hg
  rw [State.settle_of_busyWaiting hquiet hw] at hout
  exact ⟨_, hout, rfl, rfl, rfl, rfl, rfl⟩

/-- The staged sheet address has been read (R73, steps 3 and 4). -/
theorem State.armAddressRead_result (harm : s.front.attention.pending[f] = some ⟨.arm, true⟩) {bytes : List Byte}
    (hlen : bytes.length = 8)
    (hout : out = .next (s.endRead.armAddressRead f (BitVec.ofNat 64 (leNat bytes))).settle) :
    (leNat bytes = 0 ∨ leNat bytes % 2048 ≠ 0 → s.ArmFails f out .badSheet) ∧
      (leNat bytes ≠ 0 → leNat bytes % 2048 = 0 →
        ((∃ k ∈ s.eng.takes, k.sheet = BitVec.ofNat 64 (leNat bytes)) → s.ArmFails f out .sheetInUse) ∧
        ((∀ k ∈ s.eng.takes, k.sheet ≠ BitVec.ofNat 64 (leNat bytes)) → s.ArmAsks out
          (.armHeader f (BitVec.ofNat 64 (leNat bytes))) (.sheetHeader f (BitVec.ofNat 64 (leNat bytes))))) := by
  have hsheet : (BitVec.ofNat 64 (leNat bytes)).toNat = leNat bytes := by
    rw [← fieldAt_of_length hlen]
    exact toNat_ofNat_fieldAt (len := 8) (by norm_num) bytes 0
  generalize BitVec.ofNat 64 (leNat bytes) = sheet at hsheet hout ⊢
  have hzero : sheet = 0 ↔ leNat bytes = 0 := by rw [← hsheet, ← BitVec.toNat_inj]; rfl
  have hbadIff : (sheet = 0 ∨ sheet.toNat % 2048 ≠ 0) ↔ leNat bytes = 0 ∨ leNat bytes % 2048 ≠ 0 := by
    rw [hzero, hsheet]
  rw [State.armAddressRead] at hout
  refine ⟨fun hbad => ?_, fun hnonzero halign => ⟨fun hheld => ?_, fun hfree => ?_⟩⟩
  · rw [if_pos (hbadIff.mpr hbad)] at hout
    exact State.armFails_of_read honly hw hout
  · have hholds : s.endRead.eng.holdsSheet sheet = true := by
      obtain ⟨k, hk, hks⟩ := hheld
      exact List.any_eq_true.mpr ⟨k, hk, beq_iff_eq.mpr hks⟩
    rw [if_neg (by rw [hbadIff]; tauto), if_pos hholds] at hout
    exact State.armFails_of_read honly hw hout
  · have hholds : ¬s.endRead.eng.holdsSheet sheet = true := fun hheld => by
      obtain ⟨k, hk, hks⟩ := List.any_eq_true.mp hheld
      exact hfree k hk (beq_iff_eq.mp hks)
    rw [if_neg (by rw [hbadIff]; tauto), if_neg hholds] at hout
    exact State.armAsks_of_read honly hw harm hout

omit honly hw in
theorem State.armHeaderRead_of_some {sheet : HostAddr} {bytes : List Byte} {h : SheetHeader}
    (hparse : parseSheet bytes = some h) (u : State) : u.armHeaderRead f sheet bytes =
      if h.indexPosted = 0 then u.armFails f .badSheet else u.armAskEntry f sheet h 0 [] := by
  rw [State.armHeaderRead, hparse]

/-- A sheet header that cannot be taken has been read (R73, step 6). -/
theorem State.armHeaderRead_bad {sheet : HostAddr} {bytes : List Byte}
    (hbad : ∀ h, parseSheet bytes = some h → h.indexPosted = 0)
    (hout : out = .next (s.endRead.armHeaderRead f sheet bytes).settle) : s.ArmFails f out .badSheet := by
  cases hparse : parseSheet bytes with
  | none =>
    rw [State.armHeaderRead, hparse] at hout
    exact State.armFails_of_read honly hw hout
  | some h =>
    rw [State.armHeaderRead_of_some hparse, if_pos (hbad h hparse)] at hout
    exact State.armFails_of_read honly hw hout

/-- A sheet header that can be taken has been read (R73, step 6). -/
theorem State.armHeaderRead_good (harm : s.front.attention.pending[f] = some ⟨.arm, true⟩) {sheet : HostAddr}
    {bytes : List Byte} {h : SheetHeader} (hparse : parseSheet bytes = some h) (hposted : h.indexPosted ≠ 0)
    (hout : out = .next (s.endRead.armHeaderRead f sheet bytes).settle) :
    s.ArmAsks out (.armEntries f sheet h 0 []) (.armEntry f sheet 0) := by
  rw [State.armHeaderRead_of_some hparse, if_neg hposted] at hout
  exact State.armAsks_of_read honly hw harm hout

/-- An index entry that is not good has been read (R73, step 7). -/
theorem State.armEntryRead_bad (harm : s.front.attention.pending[f] = some ⟨.arm, true⟩) {sheet : HostAddr}
    {h : SheetHeader} {n : Nat} {passed : List Nat} {entry : HostAddr × Nat} (hbad : ¬entryGood entry = true)
    (hout : out = .next (s.endRead.armEntryRead f sheet h n passed entry).settle) :
    (n + 1 < h.indexPosted →
        s.ArmAsks out (.armEntries f sheet h (n + 1) (passed ++ [n])) (.armEntry f sheet (n + 1))) ∧
      (h.indexPosted ≤ n + 1 → s.ArmFails f out .badSheet) := by
  rw [State.armEntryRead, if_neg hbad] at hout
  refine ⟨fun hmore => ?_, fun hlast => ?_⟩
  · rw [if_pos hmore] at hout
    exact State.armAsks_of_read honly hw harm hout
  · rw [if_neg (Nat.not_lt.mpr hlast)] at hout
    exact State.armFails_of_read honly hw hout

end

/-! ## The ARM is taken (R73, R74) -/

/-- Where the new take of a taken ARM stands: Live and ARMED, or Staged with every block still waiting. -/
theorem Engine.placeTake_cases {x : Front} {f : FeedId} {t : Take} {e : Engine} (h : e.take? t.id = none) :
    (∃ u : Engine, u.take? t.id = none ∧ u.arbiter.busy = e.arbiter.busy ∧ e.placeTake x f t = u.placeLive f t) ∨
      (e.placeTake x f t).take? t.id = some { t with state := .staged } ∧ (e.placeTake x f t).Asked .staged t ∧
        (t.refeed = none → e.busyWaiting = true → (e.placeTake x f t).busyWaiting = true) := by
  have hwaits : ∀ {u : Engine}, (e.placeStaged f t).SameWaits u → t.refeed = none → e.busyWaiting = true →
      u.busyWaiting = true := by
    intro u hu hrefeed hw
    have hbefore := (supersedeStaged_sameWaits f e).busyWaiting hw
    have hadded : ((e.supersedeStaged f).addTake { t with state := .staged }).busyWaiting = true := by
      simp only [Engine.busyWaiting, Engine.addTake_takes, List.all_append, Bool.and_eq_true] at hbefore ⊢
      refine ⟨hbefore.1, hbefore.2, ?_⟩
      simp [hrefeed]
    exact (((Engine.updPlaces_sameWaits f _ _).trans (Engine.placeStaged_sameWork f t e).sameWaits).trans hu).busyWaiting
      hadded
  cases hk : e.liveTake f with
  | none => exact .inl ⟨e, h, rfl, Engine.placeTake_of_no_live hk⟩
  | some k =>
    by_cases hsplit : k.state = .recording ∧ t.startMode = .immediate ∧ e.places[f].deferredStop = none
    · obtain ⟨hrec, himm, hdef⟩ := hsplit
      rw [Engine.placeTake_of_split hk hrec himm hdef]
      by_cases hfull : e.closingFull f = true
      · rw [if_pos hfull]
        have hkt : t.id ≠ k.id := (Engine.id_ne_of_take? h (Engine.mem_of_liveTake hk).2).symm
        refine .inr ⟨?_, (Engine.placeStaged_asked ..).grows (.deferStop (.refl _)), hwaits ?_⟩
        · rw [Engine.deferStop_other hkt, Engine.placeStaged_take h]
        · exact (Engine.updPlaces_sameWaits f _ _).trans (Engine.updTake_sameWaits _ k.id fun _ => by rfl)
      · rw [if_neg hfull]
        exact .inl ⟨_, Engine.closeLive_take?_none (Engine.supersedeStaged_take?_none h),
          ((Engine.supersedeStaged_grows f e).trans (.closeLive (.refl _))).busy, rfl⟩
    · rw [Engine.placeTake_of_waits hk (by tauto)]
      exact .inr ⟨Engine.placeStaged_take h, Engine.placeStaged_asked .., hwaits (.refl _)⟩

/-- The new take, Live and ARMED, is the one context of its number. -/
theorem Engine.placeLive_holds {f : FeedId} {t : Take} {e : Engine} (h : e.take? t.id = none) :
    (e.placeLive f t).Holds t.placedLive := by
  refine Engine.Holds.same (e := e.addTake t.placedLive) ⟨?_, fun k hk hid => ?_⟩ (Engine.placeLive_sameWork ..).takes
  · exact List.mem_append_right _ (List.mem_singleton_self _)
  · rcases List.mem_append.mp hk with hk | hk
    · exact absurd (beq_iff_eq.mpr hid) (List.find?_eq_none.mp h k hk)
    · exact List.mem_singleton.mp hk

/-- What a taken ARM knows of its take: it has not begun. -/
theorem Take.fresh_unbegun (id : Nat) (f : FeedId) (sheet : HostAddr) (h : SheetHeader) (n : Nat) (entry : HostAddr × Nat)
    (rejected : List Nat) : (Take.fresh id f sheet h n entry rejected).placedLive.Unbegun := by
  refine ⟨rfl, rfl, rfl, ?_, rfl⟩
  show h.startMode.asLive ≠ .contiguous
  cases h.startMode <;> nofun

/-- An answer joins the write list behind what has been asked. -/
theorem State.conclude_writes (f : FeedId) (q : FeedRequest) (r : Result) (n : Nat) (s : State) : ∃ behind,
    (s.conclude f q r n).eng.port.writes = s.eng.port.writes ++
      .answer f ⟨s.front.attention.answers[f].taken + 1, some q, some r, n⟩ :: behind := by
  let a : Answer := ⟨s.front.attention.answers[f].taken + 1, some q, some r, n⟩
  obtain ⟨tail, htail⟩ := (Engine.Grows.raise (x := (s.conclude f q r n).front) (f := f) (c := .answer)
    (.refl (s.eng.ask (.answer f a)))).writes
  refine ⟨tail, htail.symm.trans ?_⟩
  show s.eng.port.writes ++ [.answer f a] ++ tail = _
  rw [List.append_assoc]
  rfl

/-- A taken ARM: once the step is over the new take is Live and ARMED or Staged, and DONE waits behind its state. -/
theorem State.settle_armTaken {f : FeedId} {s : State} (honly : s.front.attention.onlyFeed f = true)
    (hw : s.eng.busyWaiting = true) (hnew : ∀ k ∈ s.eng.takes, k.id ≠ s.eng.nextId) (sheet : HostAddr) (h : SheetHeader)
    (n : Nat) (entry : HostAddr × Nat) (rejected : List Nat) :
    let t := (s.endRead.armTaken f sheet h n entry rejected).settle
    let new := Take.fresh s.eng.nextId f sheet h n entry rejected
    t.front.attention = s.front.attention.armAnswered f .done ∧
      ∃ (k : Take) (st : SheetState), t.eng.take? s.eng.nextId = some k ∧
        (k = new.placedLive ∧ st = .armed ∨ k = { new with state := .staged } ∧ st = .staged) ∧
        ∃ before behind, t.eng.port.writes = before ++
            .answer f ⟨s.front.attention.answers[f].taken + 1, some .arm, some .done, 0⟩ :: behind ∧
          .sheetState new.id sheet st ∈ before := by
  intro t new
  let e := s.endRead.eng
  have he : e.take? new.id = none := List.find?_eq_none.mpr fun k hk => mt beq_iff_eq.mp (hnew k hk)
  let placed := e.placeTake s.front f new
  let u := (s.endRead.act fun _ _ => placed).endService
  have ht : t = (u.conclude f .arm .done 0).settle := rfl
  have hquiet : (u.conclude f .arm .done 0).front.attention.quiet = true := State.conclude_quiet (s := u) honly ..
  have hfront : t.front = (u.conclude f .arm .done 0).front := State.settle_front_of_quiet hquiet
  refine ⟨by rw [hfront]; rfl, ?_⟩
  obtain ⟨behind, hwrites⟩ := State.conclude_writes f .arm .done 0 u
  have hwork : placed.SameWork (u.conclude f .arm .done 0).eng := (State.conclude_asksOnly f .arm .done 0 u).sameWork
  /- What is asked of the new take's state, and what the step has added to the write list since. -/
  have hasked : ∀ {st}, placed.Asked st new → (u.conclude f .arm .done 0).eng.Grows t.eng → ∃ before behind,
      t.eng.port.writes = before ++
          .answer f ⟨s.front.attention.answers[f].taken + 1, some .arm, some .done, 0⟩ :: behind ∧
        .sheetState new.id sheet st ∈ before := by
    rintro st ⟨before, after, hstate, -⟩ hgrows
    obtain ⟨tail, htail⟩ := hgrows.writes
    refine ⟨placed.port.writes, behind ++ tail, ?_, ?_⟩
    · rw [← htail, hwrites, List.append_assoc, List.cons_append]
      rfl
    · rw [hstate]
      exact List.mem_append_right _ List.mem_cons_self
  rcases Engine.placeTake_cases (x := s.front) (f := f) he with ⟨v, hv, hbusy, hlive⟩ | ⟨htake, hstate, hwaits⟩
  · have hlive : placed = v.placeLive f new := hlive
    have hholds : (u.conclude f .arm .done 0).eng.Holds new.placedLive :=
      Engine.Holds.same (hlive ▸ Engine.placeLive_holds hv) hwork.takes
    have hlink : (u.conclude f .arm .done 0).linkBusy = true := by
      have hbusy' : placed.arbiter.busy = e.arbiter.busy := hlive ▸ ((Engine.placeLive_grows f new v).busy.trans hbusy)
      simp only [Engine.busyWaiting, Bool.and_eq_true] at hw
      show (u.conclude f .arm .done 0).eng.arbiter.busy.isSome = true
      rw [hwork.busy, hbusy']
      exact hw.1.1.1.1
    obtain ⟨hgrows, hkept⟩ := State.settle_holds (Take.fresh_unbegun ..) hquiet hlink hholds
    exact ⟨new.placedLive, .armed, hkept.take?, .inl ⟨rfl, rfl⟩, hasked (hlive ▸ Engine.placeLive_asked ..) hgrows⟩
  · have hsettle : t = u.conclude f .arm .done 0 :=
      State.settle_of_busyWaiting hquiet (hwork.sameWaits.busyWaiting (hwaits rfl hw))
    refine ⟨{ new with state := .staged }, .staged, ?_, .inr ⟨rfl, rfl⟩, hasked hstate (by rw [hsettle]; exact .refl _)⟩
    rw [hsettle]
    exact (hwork.take? _).trans htake

/-! ## The obligation -/

theorem exec_of_readArrives {o : Outstanding} {bytes : List Byte} {s : State} (ho : s.eng.port.outstanding = some o)
    (hw : o.wanted = true) {r : ReadRequest} (hr : o.request = r) (hl : bytes.length = (r.span s.front.pageBase).2) :
    exec (.readCompletion ⟨o.number, .data bytes⟩) s = .next (s.endRead.readArrives r bytes).settle := by
  rw [execReadCompletion_of_outstanding ho, State.completeOutstanding_data hw (by rw [hr]; exact hl), hr]

/-- Settles O34: each read's completion is the check of R73 that waits for it. -/
theorem armReadsResult : Obligations.ArmReadsResult := by
  intro f o bytes s ho hwanted honly hw
  refine ⟨fun hreq => ?_, fun hreq hlen harm => ?_, fun sheet hreq hlen harm => ?_,
    fun sheet h i passed hreq hservice hlen harm => ?_⟩
  · refine State.armFails_of_next (u := s.endRead.onFlags fun g => { g with linkFault := true }) honly hw ?_ rfl
      ⟨rfl, rfl, rfl, rfl, rfl, rfl, rfl, rfl⟩ rfl
    rw [execReadCompletion_of_outstanding ho, State.completeOutstanding_error hwanted]
    rcases hreq with h | ⟨a, h⟩ | ⟨a, i, h⟩ <;> rw [h] <;> rfl
  · refine State.armAddressRead_result honly hw harm hlen ?_
    rw [exec_of_readArrives ho hwanted hreq hlen, State.readArrives, fieldAt_of_length hlen]
  · have hout := exec_of_readArrives ho hwanted hreq hlen
    refine ⟨fun hbad => State.armHeaderRead_bad honly hw (fun h hparse => ?_) hout, fun hstart hstop hentries => ?_⟩
    · by_cases hmodes : (1 ≤ fieldAt bytes 5 1 ∧ fieldAt bytes 5 1 ≤ 4) ∧ 1 ≤ fieldAt bytes 6 1 ∧ fieldAt bytes 6 1 ≤ 4
      · obtain ⟨h', hparse', -, -, -, -, -, -, -, -, hindex⟩ := parseSheet_of_known hmodes.1 hmodes.2
        have hnone : fieldAt bytes 26 1 = 0 := by tauto
        cases hparse.symm.trans hparse'
        rw [hindex, hnone]
        rfl
      · cases hparse.symm.trans (parseSheet_of_unknown (by tauto))
    · obtain ⟨h, hparse, hlabel, hbrowse, hmode, hstopMode, hparam, hstopParam, hessence, hposted, hindex⟩ :=
        parseSheet_of_known hstart hstop
      exact ⟨h, State.armHeaderRead_good honly hw harm hparse (by rw [hindex]; omega) hout, hlabel, hbrowse, hmode,
        hstopMode, hparam, hstopParam, hessence, hposted, hindex⟩
  · have hout : exec (.readCompletion ⟨o.number, .data bytes⟩) s =
        .next (s.endRead.armEntryRead f sheet h i passed (parseEntry bytes)).settle := by
      rw [exec_of_readArrives ho hwanted hreq hlen, State.readArrives,
        show s.endRead.front.attention.service = some (.armEntries f sheet h i passed) from hservice]
    refine ⟨fun hgood hnew => ?_,
      fun hbad => (State.armEntryRead_bad honly hw harm (mt (entryGood_iff bytes).mp hbad) hout).1,
      fun hbad => (State.armEntryRead_bad honly hw harm (mt (entryGood_iff bytes).mp hbad) hout).2⟩
    rw [State.armEntryRead, if_pos ((entryGood_iff bytes).mpr hgood)] at hout
    obtain ⟨hanswer, k, st, htake, hk, before, behind, hwrites, hstate⟩ :=
      State.settle_armTaken honly hw hnew sheet h i (parseEntry bytes) passed
    refine ⟨_, k, before, behind, hout, hanswer, htake, ?_⟩
    rcases hk with ⟨rfl, rfl⟩ | ⟨rfl, rfl⟩
    · refine ⟨rfl, rfl, rfl, ?_, rfl, rfl, rfl, rfl, rfl, rfl, rfl, rfl, rfl, .inl rfl, hwrites, hstate⟩
      show h.startMode.asLive = _
      cases hm : h.startMode <;> rfl
    · refine ⟨rfl, rfl, rfl, ?_, rfl, rfl, rfl, rfl, rfl, rfl, rfl, rfl, rfl, .inr rfl, hwrites, hstate⟩
      exact (if_neg fun hc => nomatch hc.2).symm

end Sys2Proof.Machine
end


section
/-! The record budget (R98, R110, R112): what an ordinary event record does to its own take, and that other takes stay. -/

namespace Sys2Proof.Machine

/-! ## An ordinary event record and the takes -/

/-- While the feed's budget count is below 488, the record joins its take's queue (R98, R110, R112). -/
theorem Engine.queueEvent_take_admitted {b : RecordBody} {e : Engine} {n : Nat} {k : Take} (hk : e.take? n = some k)
    (hroom : e.budget k.feed < eventPlaces) :
    (e.queueEvent n b).take? n = some { k with queue := joinQueue k.queue (e.numbered b) } := by
  rw [Engine.queueEvent_take hk, if_pos hroom]

/-- From a budget count of 488 on, the take counts the record as discarded and its queue stays (R112). -/
theorem Engine.queueEvent_take_discarded {b : RecordBody} {e : Engine} {n : Nat} {k : Take} (hk : e.take? n = some k)
    (hfull : eventPlaces ≤ e.budget k.feed) : (e.queueEvent n b).take? n = some (k.discardEvents 1) := by
  rw [Engine.queueEvent_take hk, if_neg (Nat.not_lt.mpr hfull)]

/-- Admitted or discarded, the record of take `t` leaves every other take as it is. -/
theorem Engine.queueEvent_take_of_ne {t n : Nat} (b : RecordBody) (e : Engine) (hn : n ≠ t) :
    (e.queueEvent t b).take? n = e.take? n := by
  unfold Engine.queueEvent
  split
  · rfl
  · split
    · exact Engine.take?_updTake_of_ne e _ (fun _ => rfl) hn
    · exact Engine.take?_updTake_of_ne e _ (fun _ => rfl) hn

/-! ## The obligation -/

/-- Settles O47: the branch of R112 decides between the queue and the count; the place in the queue is `joinQueue`'s. -/
theorem recordBudget : Obligations.RecordBudget := by
  intro b k e hk
  refine ⟨fun hroom => ⟨e.numbered b, rfl, ?joins⟩, fun hfull => ?counted, fun n hn => ?others⟩
  case joins => exact Engine.queueEvent_take_admitted hk hroom
  case counted => exact Engine.queueEvent_take_discarded hk hfull
  case others => exact Engine.queueEvent_take_of_ne b e hn

end Sys2Proof.Machine
end


section
/-! The Browse Reducer: the dither cycle (R131, R132), and the browse line of a completed band and its hand-over to the
Browse Writer (R129 to R135). -/

namespace Sys2Proof.Machine

/-! ## The dither cycle -/

/-- R131: the ordered matrix is 4 by 4 and repeats in either direction. -/
theorem ditherEntry_mod (row column : Nat) : ditherEntry (row % 4) (column % 4) = ditherEntry row column := by
  simp only [ditherEntry, Nat.mod_mod]

/-- R131: each of the sixteen values stands in exactly one cell of the ordered matrix. -/
theorem ditherEntry_cell : ∀ m : Fin 16, ∃ cell : Fin 4 × Fin 4, ∀ a b : Fin 4, ditherEntry a b = m ↔ (a, b) = cell := by
  decide

/-- R131: where a value of the ordered matrix is met. -/
theorem ditherEntry_eq_iff {m : Nat} (hm : m < 16) : ∃ row < 4, ∃ column < 4, ∀ a b,
    ditherEntry a b = m ↔ a % 4 = row ∧ b % 4 = column := by
  obtain ⟨⟨row, column⟩, hcell⟩ := ditherEntry_cell ⟨m, hm⟩
  refine ⟨row, row.isLt, column, column.isLt, fun a b => ?_⟩
  have h := hcell ⟨a % 4, Nat.mod_lt a (by decide)⟩ ⟨b % 4, Nat.mod_lt b (by decide)⟩
  rwa [ditherEntry_mod, Prod.mk.injEq, Fin.ext_iff, Fin.ext_iff] at h

/-- R131, R132: an output pixel meets a value at exactly one residue modulo 16 of the dither index. -/
theorem ditherEntry_shifted_eq_iff (u v : Nat) {m : Nat} (hm : m < 16) : ∃ s < 16, ∀ d,
    ditherEntry (v + d / 4 % 4) (u + d % 4) = m ↔ d % 16 = s := by
  obtain ⟨row, hrow, column, hcolumn, hcell⟩ := ditherEntry_eq_iff hm
  refine ⟨4 * ((row + 4 - v % 4) % 4) + (column + 4 - u % 4) % 4, by omega, fun d => ?_⟩
  rw [hcell]
  omega

/-- R132: over a dither period of 16 or more, the dither index runs through the residues modulo 16 as the position does. -/
theorem ditherIndex_mod_sixteen {period : Nat} (hperiod : 16 ∣ period) (phase k : Nat) :
    ditherIndex period phase k % 16 = (k + phase * (period / 4)) % 16 := Nat.mod_mod_of_dvd _ hperiod

/-- Sixteen consecutive numbers meet each residue modulo 16 once. -/
theorem existsUnique_add_mod_sixteen (c : Nat) {s : Nat} (hs : s < 16) : ∃! j, j < 16 ∧ (c + j) % 16 = s := by
  refine ⟨(s + 16 - c % 16) % 16, ⟨by omega, by omega⟩, ?_⟩
  rintro j ⟨hj, hmod⟩
  omega

/-- Settles O57: a value belongs to one residue of the dither index, and sixteen consecutive positions meet each residue
once. -/
theorem ditherCycle : Obligations.DitherCycle := by
  intro period phase u v first m hperiod hm
  have hdvd : 16 ∣ period := by rcases hperiod with rfl | rfl | rfl <;> decide
  obtain ⟨s, hs, hmet⟩ := ditherEntry_shifted_eq_iff u v hm
  simp only [hmet, ditherIndex_mod_sixteen hdvd, fun j => Nat.add_right_comm first j (phase * (period / 4))]
  exact existsUnique_add_mod_sixteen _ hs

/-! ## The browse line of a band -/

/-- R129 to R133: the byte of output pixel `u` on the line in reduction, from the sum of its block. -/
def Reduction.browseByte (r : Reduction) (sum u : Nat) : Byte :=
  BitVec.ofNat 8 (browseSample r.factor sum (r.bias u r.nextLine))

/-- An accumulator list holds in place `j` what its sum says for `j`. -/
theorem getD_map_range {n j : Nat} (f : Nat → Nat) (h : j < n) : ((List.range n).map f).getD j 0 = f j := by
  simp [List.getD_eq_getElem?_getD, h]

/-- R134: every accumulator that a line's pairs name is a block sum of the band. -/
theorem Reduction.packBand_bandSums (r : Reduction) (m : Dram) (w : Nat) :
    let base := r.slot.val * slotBytes
    let y := r.nextLine * r.factor
    r.packBand (r.bandSums m w) = (List.range (r.wb / 2)).flatMap fun j =>
      [ r.browseByte (blockSum r.factor (cbAt m base w) (j * r.factor) y) (2 * j),
        r.browseByte (blockSum r.factor (lumaAt m base w) (2 * j * r.factor) y) (2 * j),
        r.browseByte (blockSum r.factor (crAt m base w) (j * r.factor) y) (2 * j),
        r.browseByte (blockSum r.factor (lumaAt m base w) ((2 * j + 1) * r.factor) y) (2 * j + 1) ] := by
  refine List.flatMap_congr fun j hj => ?_
  have hpair : j < r.wb / 2 := List.mem_range.mp hj
  have hleft : 2 * j < r.wb := by omega
  have hright : 2 * j + 1 < r.wb := by omega
  simp only [Reduction.bandSums, getD_map_range _ hpair, getD_map_range _ hleft, getD_map_range _ hright,
    Reduction.browseByte]

/-! ## A band completes -/

/-- R134, R135: the Reducer and the Browse Writer once the band of reduction `r` is handed over; `w` is the width of the
source lines in card DRAM. -/
def Reducer.handed (r : Reduction) (m : Dram) (w : Nat) (q : Reducer) : Reducer :=
  { q with
    frame := some { r with nextLine := r.nextLine + 1 }
    line := some ⟨r.nextLine, r.position * r.bfb + r.nextLine * (2 * r.wb), r.packBand (r.bandSums m w)⟩ }

/-- R134, R135: with no line in hand, a band that comes in is handed over in the same act. -/
theorem Engine.bandComplete_handed {x : Front} {e : Engine} {r : Reduction} {k : Take} {g : Geometry}
    (hframe : e.reducer.frame = some r) (hsums : r.sums = none) (hline : r.nextLine < r.hb)
    (hfree : e.reducer.line = none) (hk : e.take? r.take = some k) (hg : k.geom = some g) :
    e.bandComplete x = { e with reducer := e.reducer.handed r x.dram g.w } := by
  have hw : (((e.take? r.take).bind (·.geom)).map (·.w)).getD 0 = g.w := by simp [hk, hg]
  have hreads : ¬(r.sums.isSome || decide (r.hb ≤ r.nextLine)) = true := by simp [hsums, hline]
  have hnext : { r with sums := none, nextLine := r.nextLine + 1 } = { r with nextLine := r.nextLine + 1 } := by
    rw [← hsums]
  simp only [Engine.bandComplete, hframe, if_neg hreads, hw, Engine.handLine, hfree, hnext]
  rfl

/-- The line in hand is the Link Arbiter's work alone: while a frame is in reduction and the check stays as it was, a
change of the Reducer gives no block an act. -/
theorem Engine.blockStep_of_reducer {e : Engine} {x : Front} {q : Reducer} (h : e.blockStep x = none)
    (hcheck : q.check = e.reducer.check) (hframe : q.frame.isSome = true) :
    Engine.blockStep x { e with reducer := q } = none := by
  simp only [Engine.blockStep, Option.or_eq_none_iff] at h ⊢
  obtain ⟨hrefeed, hmover, hreducer, hwriter⟩ := h
  refine ⟨?refeed, ?mover, ?reducer, ?writer⟩
  case refeed => simpa only [Engine.refeedStep, Option.map_eq_none_iff] using hrefeed
  case mover =>
    have hchoice : Engine.moverChoice { e with reducer := q } = e.moverChoice := rfl
    unfold Engine.moverStep at hmover ⊢
    rw [hchoice]
    split <;> simp_all
  case reducer =>
    unfold Engine.reducerStep at hreducer ⊢
    rw [hcheck]
    split <;> simp_all
  case writer =>
    have horder : Engine.serviceOrder { e with reducer := q } = e.serviceOrder := rfl
    have hfinding : ∀ t b, Engine.writerFinding t b { e with reducer := q } = e.writerFinding t b := fun _ _ => rfl
    unfold Engine.writerStep at hwriter ⊢
    simp only [horder, hfinding]
    split <;> simp_all

/-- While the link is busy, such a change of the Reducer leaves a part at rest. -/
theorem State.atRest_of_reducer {s : State} {q : Reducer} (hr : s.atRest = true) (hb : s.linkBusy = true)
    (hcheck : q.check = s.eng.reducer.check) (hframe : q.frame.isSome = true) :
    State.atRest { s with eng := { s.eng with reducer := q } } = true := by
  have hnone : s.unitStep = none := by simpa [State.atRest] using hr
  obtain ⟨hserve, hblock, hrefill, -⟩ := s.unitStep_eq_none_iff.mp hnone
  refine Option.isNone_iff_eq_none.mpr ((State.unitStep_eq_none_iff _).mpr ⟨?serve, ?block, ?refill, ?arbiter⟩)
  case serve => exact (State.serveStep_eq_none_iff _).mpr (s.serveStep_eq_none_iff.mp hserve)
  case block => exact Engine.blockStep_of_reducer hblock hcheck hframe
  case refill => exact (State.refillStep_eq_none_iff _).mpr (s.refillStep_eq_none_iff.mp hrefill)
  case arbiter => exact Engine.arbiterStep_of_busy _ hb

theorem exec_browseBandComplete (s : State) :
    exec .browseBandComplete s = .next (s.act fun x e => e.bandComplete x).settle := rfl

/-- Settles O36: the band is handed over in the act itself, and the handed line waits for the busy link. -/
theorem browseBandCompleteResult : Obligations.BrowseBandCompleteResult := by
  intro r k g s hr hb hframe hsums hline hfree hk hg base v sample
  let q := s.eng.reducer.handed r s.front.dram g.w
  have hact : (s.act fun x e => e.bandComplete x) = { s with eng := { s.eng with reducer := q } } :=
    congrArg (fun e => { s with eng := e }) (Engine.bandComplete_handed hframe hsums hline hfree hk hg)
  have hrest : State.atRest { s with eng := { s.eng with reducer := q } } = true :=
    State.atRest_of_reducer hr hb rfl rfl
  rw [exec_browseBandComplete, hact, State.settle_of_atRest hrest]
  simp only [q, Reducer.handed, Reduction.packBand_bandSums]
  rfl

end Sys2Proof.Machine
end


section
/-! The Link Arbiter's order of grants (R143, R145, R146). -/

namespace Sys2Proof.Machine

/-- R143: of two picture writers that wait, the Mover gives way only when it was granted last. -/
theorem LastGrant.essenceFirst_iff {g : LastGrant} : g.essenceFirst = true ↔ g ≠ .essence := by
  cases g <;> simp [LastGrant.essenceFirst]

namespace Engine

variable {x : Front} {e : Engine}

/-! ## The Record Port (R145, R146) -/

theorem grantPort_of_write {w : WriteRequest} {rest : List WriteRequest} (hw : e.port.writes = w :: rest) :
    e.grantPort x = some (e.grantWrite x w rest) := by
  simp only [grantPort, hw]

theorem grantPort_of_read {r : ReadRequest} {rest : List ReadRequest} (hw : e.port.writes = [])
    (hr : e.port.reads = r :: rest) (ho : e.port.outstanding = none) :
    e.grantPort x = some (e.grantRead x r rest) := by
  simp only [grantPort, hw, hr, ho]

/-- R146: with no write, the port waits only for a read that may become the outstanding one. -/
theorem grantPort_of_no_request (hw : e.port.writes = []) (hr : e.port.reads = [] ∨ e.port.outstanding ≠ none) :
    e.grantPort x = none := by
  unfold grantPort
  rcases hr with hreads | hout
  · simp only [hw, hreads]
  · obtain ⟨o, ho⟩ := Option.ne_none_iff_exists'.mp hout
    cases hreads : e.port.reads <;> simp only [hw, ho]

/-! ## The Index Writer -/

theorem grantIndex_of_asking {n : Nat} (hn : e.writer.inHand = some (n, .asking)) :
    e.grantIndex = some (e.grantRecord n) := by
  simp only [grantIndex, hn]

theorem grantIndex_of_not_asking (hn : ∀ n, e.writer.inHand ≠ some (n, .asking)) : e.grantIndex = none := by
  unfold grantIndex
  split
  next n h => exact absurd h (hn n)
  next => rfl

/-! ## The picture writers (R143) -/

theorem grantPicture_of_both {i : SlotId} {next : Nat} {r : Reduction} {l : LineInHand}
    (hm : e.mover.state = .moving i next) (hf : e.reducer.frame = some r) (hl : e.reducer.line = some l) :
    e.grantPicture x =
      some (if e.arbiter.lastGrant = .essence then e.grantBrowse r l else e.grantEssence x i next) := by
  simp only [grantPicture, hm, hf, hl, LastGrant.essenceFirst_iff, ne_eq, ite_not]

theorem grantPicture_of_essence {i : SlotId} {next : Nat} (hm : e.mover.state = .moving i next)
    (hb : e.reducer.frame = none ∨ e.reducer.line = none) : e.grantPicture x = some (e.grantEssence x i next) := by
  unfold grantPicture
  rcases hb with hf | hl
  · simp only [hm, hf]
  · cases hf : e.reducer.frame <;> simp only [hm, hl]

/-- R143: without a frame transfer the Browse Writer alone can be granted: a line in hand of the frame in reduction. -/
theorem grantPicture_of_not_moving (hm : ∀ i next, e.mover.state ≠ .moving i next) :
    e.grantPicture x = e.reducer.frame.bind fun r => e.reducer.line.map fun l => e.grantBrowse r l := by
  unfold grantPicture
  cases hs : e.mover.state with
  | moving i next => exact absurd hs (hm i next)
  | idle => cases e.reducer.frame <;> cases e.reducer.line <;> rfl
  | checking i stage => cases e.reducer.frame <;> cases e.reducer.line <;> rfl

theorem grantPicture_of_browse {r : Reduction} {l : LineInHand} (hm : ∀ i next, e.mover.state ≠ .moving i next)
    (hf : e.reducer.frame = some r) (hl : e.reducer.line = some l) : e.grantPicture x = some (e.grantBrowse r l) := by
  rw [grantPicture_of_not_moving hm, hf, hl, Option.bind_some, Option.map_some]

theorem grantPicture_of_neither (hm : ∀ i next, e.mover.state ≠ .moving i next)
    (hb : e.reducer.frame = none ∨ e.reducer.line = none) : e.grantPicture x = none := by
  rw [grantPicture_of_not_moving hm]
  rcases hb with hf | hl
  · rw [hf, Option.bind_none]
  · simp only [hl, Option.map_none, Option.bind_fun_none]

/-! ## A free link (R143) -/

theorem arbiterStep_of_free (hfree : e.arbiter.busy = none) :
    e.arbiterStep x = (e.grantPort x).or (e.grantIndex.or (e.grantPicture x)) := by
  simp [arbiterStep, hfree]

theorem arbiterStep_of_port {e' : Engine} (hfree : e.arbiter.busy = none) (hp : e.grantPort x = some e') :
    e.arbiterStep x = some e' := by
  rw [arbiterStep_of_free hfree, hp, Option.some_or]

theorem arbiterStep_of_index {e' : Engine} (hfree : e.arbiter.busy = none) (hp : e.grantPort x = none)
    (hi : e.grantIndex = some e') : e.arbiterStep x = some e' := by
  rw [arbiterStep_of_free hfree, hp, hi, Option.none_or, Option.some_or]

theorem arbiterStep_of_picture (hfree : e.arbiter.busy = none) (hp : e.grantPort x = none)
    (hi : e.grantIndex = none) : e.arbiterStep x = e.grantPicture x := by
  rw [arbiterStep_of_free hfree, hp, hi, Option.none_or, Option.none_or]

end Engine

/-- Settles O52: the Arbiter asks the Record Port, then the Index Writer, then the picture writers, and each answers by
what it waits for. -/
theorem arbiterOrder : Obligations.ArbiterOrder := by
  intro x e hfree
  refine ⟨fun w rest hw => ?write, fun r rest hw hr ho => ?read, fun hw hr => ?noPort⟩
  case write => exact Engine.arbiterStep_of_port hfree (Engine.grantPort_of_write hw)
  case read => exact Engine.arbiterStep_of_port hfree (Engine.grantPort_of_read hw hr ho)
  case noPort =>
    have hport : e.grantPort x = none := Engine.grantPort_of_no_request hw hr
    refine ⟨fun n hn => ?index, fun hn => ?picture⟩
    case index => exact Engine.arbiterStep_of_index hfree hport (Engine.grantIndex_of_asking hn)
    case picture =>
      rw [Engine.arbiterStep_of_picture hfree hport (Engine.grantIndex_of_not_asking hn)]
      exact ⟨fun _ _ _ _ => Engine.grantPicture_of_both, fun _ _ => Engine.grantPicture_of_essence,
        fun _ _ => Engine.grantPicture_of_browse, Engine.grantPicture_of_neither⟩

end Sys2Proof.Machine
end


section
/-! FEED_RESET of a feed without takes (R164, R169, R176): what it makes of the feed's receiver, timer and reduction context,
and of the engine. -/

namespace Sys2Proof.Machine

/-! ## No condition holds for a feed that was reset -/

/-- A feed without a Live and without a Closing take has no starved take (R170). -/
theorem Engine.starvedFeed_of_no_takes {e : Engine} {f : FeedId} (hlive : e.places[f].live = none)
    (hclosing : e.places[f].closing = []) : e.starvedFeed f = false := by
  rw [Engine.starvedFeed, Engine.standingTakes, Engine.liveTake, hlive, hclosing]
  rfl

/-- R7, R30, R170: with no loss condition, no take that starves and no cadence condition, no condition cause is due. -/
theorem conditionCauses_of_none {x : Front} {e : Engine} {f : FeedId} (hloss : x.receivers[f].lossCondition = false)
    (hstarved : e.starvedFeed f = false) (hcadence : x.timers[f].cadenceOff = false) : conditionCauses x e f = 0 := by
  rw [conditionCauses, hloss, hstarved, hcadence]
  rfl

/-- The causes once the condition causes follow their conditions. -/
theorem Engine.syncConditions_causes (x : Front) (f : FeedId) (e : Engine) : (e.syncConditions x f).notices.causes =
    upd e.notices.causes f fun c => c &&& eventCauses ||| conditionCauses x e f :=
  Engine.setCauses_causes ..

/-! ## The feed's takes end, there being none (R85) -/

theorem Engine.endTakes_of_no_takes {x : Front} {f : FeedId} {e : Engine} (hlive : e.places[f].live = none)
    (hstaged : e.places[f].staged = none) (hclosing : e.places[f].closing = []) (reason : CloseReason) :
    e.endTakes x f reason =
      (e.updPlaces f fun p => { p with live := none, deferredStop := none }).syncConditions x f := by
  have hnone : e.liveTake f = none := by rw [Engine.liveTake, hlive, Option.bind_none]
  unfold Engine.endTakes
  simp only [hnone, hclosing, Option.filter_none, Option.toList_none, List.filterMap_nil, List.append_nil, List.foldl_nil,
    Engine.cancelStaged_of_none hstaged, Option.isSome_none, Bool.false_eq_true, if_false]

/-! ## The reset of one feed (R164) -/

/-- R164: feed `f`'s receiver, timer and reduction context after FEED_RESET; the lane's signal is kept (log entry 6). -/
def Front.resetFeed (f : FeedId) (x : Front) : Front :=
  { (x.updReceiver f fun r => { Receiver.reset with signal := r.signal }).updTimer f fun _ => .reset with
    reduce := upd x.reduce f fun _ => none }

theorem Front.resetFeed_self (f : FeedId) (x : Front) :
    (x.resetFeed f).receivers[f] = { Receiver.reset with signal := x.receivers[f].signal } ∧
      (x.resetFeed f).timers[f] = FeedTimer.reset ∧ (x.resetFeed f).reduce[f] = none :=
  ⟨upd_same .., upd_same .., upd_same ..⟩

theorem Front.resetFeed_other {f g : FeedId} (h : g ≠ f) (x : Front) :
    (x.resetFeed f).receivers[g] = x.receivers[g] ∧ (x.resetFeed f).timers[g] = x.timers[g] ∧
      (x.resetFeed f).reduce[g] = x.reduce[g] :=
  ⟨upd_other _ h _, upd_other _ h _, upd_other _ h _⟩

theorem Front.resetFeed_conditionCauses {x : Front} {f : FeedId} {e : Engine} (h : e.starvedFeed f = false) :
    conditionCauses (x.resetFeed f) e f = 0 := by
  obtain ⟨hreceiver, htimer, -⟩ := x.resetFeed_self f
  refine conditionCauses_of_none ?_ h ?_
  · rw [hreceiver]; rfl
  · rw [htimer]; rfl

/-- R164: feed `f`'s cause set is emptied. -/
def Engine.emptyCauses (f : FeedId) (e : Engine) : Engine :=
  { e with notices := { e.notices with causes := upd e.notices.causes f fun _ => 0 } }

/-- R164: the writes of the link state, if it was not DARK, and of the measured period are asked. -/
def Engine.askReset (linked : Bool) (f : FeedId) (e : Engine) : Engine :=
  (if linked then e.ask (.link f) else e).ask (.period f)

/-- R164: feed `f`'s committed count becomes 0. -/
def Engine.zeroCommitted (f : FeedId) (e : Engine) : Engine :=
  { e with board := upd e.board f fun b => { b with committed := 0 } }

/-- R164: the engine after FEED_RESET of feed `f`, before the answer; `x` is the front with the feed reset. -/
def Engine.resetFeed (x : Front) (linked : Bool) (f : FeedId) (e : Engine) : Engine :=
  (((e.emptyCauses f).endTakes x f .feedReset).askReset linked f).zeroCommitted f

/-- R164: FEED_RESET is the reset of the feed, and then its answer. -/
theorem State.serveFeedReset_eq (f : FeedId) (s : State) : s.serveFeedReset f =
    State.conclude f .feedReset .done 0 { s with
      front := s.front.resetFeed f
      eng := s.eng.resetFeed (s.front.resetFeed f) (s.front.receivers[f].link != .dark) f } := rfl

theorem Engine.askReset_asksOnly (linked : Bool) (f : FeedId) (e : Engine) : e.AsksOnly (e.askReset linked f) := by
  unfold Engine.askReset
  refine .trans (b := if linked then e.ask (.link f) else e) ?_ (Engine.ask_asksOnly ..)
  split
  · exact Engine.ask_asksOnly ..
  · exact .refl e

theorem Engine.zeroCommitted_sameWork (f : FeedId) (e : Engine) : e.SameWork (e.zeroCommitted f) :=
  ⟨rfl, rfl, rfl, rfl, rfl, rfl, rfl, rfl⟩

theorem Engine.askReset_notices (linked : Bool) (f : FeedId) (e : Engine) : (e.askReset linked f).notices = e.notices := by
  unfold Engine.askReset
  rw [Engine.ask_notices]
  split
  · exact Engine.ask_notices ..
  · rfl

section
variable {x : Front} {f : FeedId} {e : Engine} (hlive : e.places[f].live = none) (hstaged : e.places[f].staged = none)
  (hclosing : e.places[f].closing = [])
include hlive hstaged hclosing

/-- The end of the takes of a feed that has none, after the reset of its front: no condition cause joins its emptied
set. -/
theorem Engine.endTakes_resetFeed_causes :
    ((e.emptyCauses f).endTakes (x.resetFeed f) f .feedReset).notices.causes = upd e.notices.causes f fun _ => 0 := by
  let u := (e.emptyCauses f).updPlaces f fun p => { p with live := none, deferredStop := none }
  have hu : u.places[f] = { e.places[f] with live := none, deferredStop := none } := upd_same ..
  have hstarved : u.starvedFeed f = false :=
    Engine.starvedFeed_of_no_takes (by rw [hu]) (by rw [hu]; exact hclosing)
  rw [Engine.endTakes_of_no_takes (e := e.emptyCauses f) hlive hstaged hclosing, Engine.syncConditions_causes,
    Front.resetFeed_conditionCauses hstarved]
  show upd (upd e.notices.causes f fun _ => 0) f _ = _
  rw [upd_upd]
  rfl

/-- FEED_RESET of a feed without takes empties its cause set. -/
theorem Engine.resetFeed_causes (linked : Bool) :
    (e.resetFeed (x.resetFeed f) linked f).notices.causes = upd e.notices.causes f fun _ => 0 := by
  show (Engine.askReset linked f _).notices.causes = _
  rw [Engine.askReset_notices, Engine.endTakes_resetFeed_causes hlive hstaged hclosing]

/-- FEED_RESET of a feed without takes leaves the takes, the slots and the blocks' waits as they are. -/
theorem Engine.resetFeed_keeps (linked : Bool) : (e.resetFeed x linked f).takes = e.takes ∧
    (e.resetFeed x linked f).slots = e.slots ∧ e.SameWaits (e.resetFeed x linked f) := by
  let u := (e.emptyCauses f).updPlaces f fun p => { p with live := none, deferredStop := none }
  have hends : u.SameWork ((e.emptyCauses f).endTakes x f .feedReset) := by
    rw [Engine.endTakes_of_no_takes (e := e.emptyCauses f) hlive hstaged hclosing]
    exact Engine.setCauses_sameWork ..
  have hwork : u.SameWork (e.resetFeed x linked f) :=
    (hends.trans (Engine.askReset_asksOnly linked f _).sameWork).trans (Engine.zeroCommitted_sameWork f _)
  exact ⟨hwork.takes, hwork.slots, .trans (b := u) ⟨rfl, rfl, rfl, rfl, rfl⟩ hwork.sameWaits⟩

end

theorem Engine.resetFeed_committed (x : Front) (linked : Bool) (f : FeedId) (e : Engine) :
    (e.resetFeed x linked f).board[f].committed = 0 :=
  congrArg Board.committed (upd_same ..)

/-! ## The answer (R154, R169) -/

/-- The answer of a request raises ANSWER. -/
theorem State.conclude_causes (f : FeedId) (q : FeedRequest) (r : Result) (n : Nat) (s : State) :
    (s.conclude f q r n).eng.notices.causes = upd s.eng.notices.causes f fun c => c ||| Cause.bit .answer := by
  show (Engine.setCauses _ f _ (s.eng.ask _)).notices.causes = _
  rw [Engine.setCauses_causes, Engine.ask_notices]
  rfl

/-- An answer leaves every committed count as it is. -/
theorem State.conclude_board (f : FeedId) (q : FeedRequest) (r : Result) (n : Nat) (s : State) :
    (s.conclude f q r n).eng.board = s.eng.board := by
  rw [s.conclude_asksOnly f q r n]

/-- Settles O43: the reset leaves every block waiting, and the answer ends the step. -/
theorem feedResetResult : Obligations.FeedResetResult := by
  intro f s hrun hc hlive hstaged hclosing hw
  let linked := s.front.receivers[f].link != .dark
  let u : State := { s.inHand f .feedReset with
    front := (s.inHand f .feedReset).front.resetFeed f
    eng := s.eng.resetFeed ((s.inHand f .feedReset).front.resetFeed f) linked f }
  let t := u.conclude f .feedReset .done 0
  have hserve : (s.inHand f .feedReset).serveFeed f .feedReset = t := State.serveFeedReset_eq f _
  obtain ⟨htakes, hslots, hwaits⟩ :=
    Engine.resetFeed_keeps (x := (s.inHand f .feedReset).front.resetFeed f) hlive hstaged hclosing linked
  have hsettle : (s.attentionFeed .feedReset (maskOf f)).settle = t :=
    State.settle_attentionFeed_answered hrun hc hserve (State.inHand_onlyFeed hc f .feedReset) (hwaits.busyWaiting hw)
  have hwork : u.eng.SameWork t.eng := (u.conclude_asksOnly ..).sameWork
  have hcauses : t.eng.notices.causes = upd s.eng.notices.causes f fun _ => 0x008 := by
    rw [State.conclude_causes, Engine.resetFeed_causes hlive hstaged hclosing, upd_upd]
    rfl
  have hcommitted : t.eng.board[f].committed = 0 := by
    rw [State.conclude_board]
    exact Engine.resetFeed_committed ..
  obtain ⟨hreceiver, htimer, hreduce⟩ := s.front.resetFeed_self f
  refine ⟨t, congrArg Host.Outcome.next hsettle, hreceiver, htimer, hreduce, hcommitted, ?causes, State.conclude_answer ..,
    fun g hg => ?others, hwork.slots.trans hslots, hwork.takes.trans htakes, (u.conclude_kept ..).dram⟩
  case causes => rw [hcauses, upd_same]
  case others =>
    obtain ⟨hreceiver, htimer, hreduce⟩ := Front.resetFeed_other hg s.front
    exact ⟨hreceiver, htimer, hreduce, by rw [hcauses, upd_other _ hg]⟩

end Sys2Proof.Machine
end


section
/-! Feed requests that are refused (R154, R160, R163). -/

namespace Sys2Proof.Machine

/-! ## The command of a request (section 9.3) -/

/-- The command that carries a feed request for the feeds of `mask`. -/
def FeedRequest.command (mask : BitVec 16) : FeedRequest → Instr
  | .load => .load mask
  | .loadCommon => .loadCommon mask
  | .arm => .arm mask
  | .stop => .stop mask
  | .halt => .halt mask
  | .abort => .abort mask
  | .refill => .refill mask
  | .feedReset => .feedReset mask

theorem exec_command (q : FeedRequest) (mask : BitVec 16) (s : State) :
    exec (q.command mask) s = .next (s.attentionFeed q mask).settle := by
  cases q <;> rfl

/-! ## A request for a feed that has one already (R160) -/

/-- An answer leaves the requests as they are, so that a quiet Attention Unit stays quiet. -/
theorem State.answer_quiet {s : State} (h : s.front.attention.quiet = true) (f : FeedId) (q : FeedRequest) (r : Result)
    (n : Nat) : (s.answer f q r n).front.attention.quiet = true := h

theorem State.attentionFeed_maskOf {s : State} (hrun : s.front.attention.part = .running) (q : FeedRequest) (f : FeedId) :
    s.attentionFeed q (maskOf f) = s.takeFeed q f := by
  rw [State.attentionFeed, if_pos ⟨hrun, maskOf_ne_zero f⟩, maskFeeds_maskOf, List.foldl_cons, List.foldl_nil]

theorem State.takeFeed_of_pending {s : State} {f : FeedId} (h : s.front.attention.pending[f] ≠ none) (q : FeedRequest) :
    s.takeFeed q f = s.answer f q .refusedPending 0 := by
  obtain ⟨p, hp⟩ := Option.ne_none_iff_exists'.mp h
  rw [State.takeFeed, hp]

/-- The front once a request for a feed that has one already is answered. -/
theorem State.settle_attentionFeed_pending {s : State} {f : FeedId} (hrun : s.front.attention.part = .running)
    (hpending : s.front.attention.pending[f] ≠ none) (hquiet : s.front.attention.quiet = true) (q : FeedRequest) :
    (s.attentionFeed q (maskOf f)).settle.front = { s.front with attention := { s.front.attention with
      answers := upd s.front.attention.answers f fun a => ⟨a.taken + 1, some q, some .refusedPending, 0⟩ } } := by
  rw [State.attentionFeed_maskOf hrun, State.takeFeed_of_pending hpending,
    State.settle_front_of_quiet (State.answer_quiet hquiet ..)]
  rfl

/-! ## A take request of an OFF feed (R163) -/

/-- R163: the requests that an OFF feed refuses. -/
def FeedRequest.refusedOff : FeedRequest → Bool
  | .arm | .stop | .halt | .abort | .refill => true
  | .load | .loadCommon | .feedReset => false

theorem State.serveFeed_of_off {s : State} {f : FeedId} (hoff : s.front.receivers[f].enabled = false) {q : FeedRequest}
    (hq : q.refusedOff = true) : s.serveFeed f q = s.conclude f q .refusedState 0 := by
  have hdisabled : ¬(s.receiver f).enabled = true := by rw [State.receiver_eq, hoff]; nofun
  have hlive : s.enabledLive f = none := if_neg hdisabled
  cases q with
  | load | loadCommon | feedReset => cases hq
  | arm => exact if_neg hdisabled
  | stop => show s.serveStop f = _; rw [State.serveStop, hlive]
  | halt => show s.serveHalt f = _; rw [State.serveHalt, hlive]
  | abort => exact if_neg fun h => hdisabled h.1
  | refill => exact if_neg hdisabled

/-- The front once a request on takes of an OFF feed, taken while nothing else is requested, is answered. -/
theorem State.settle_attentionFeed_off {s : State} {f : FeedId} (hrun : s.front.attention.part = .running)
    (hc : s.front.attention.clear = true) (hoff : s.front.receivers[f].enabled = false) {q : FeedRequest}
    (hq : q.refusedOff = true) :
    (s.attentionFeed q (maskOf f)).settle.front = { s.front with attention := { s.front.attention with
      lastServed := some f
      answers := upd s.front.attention.answers f fun a => ⟨a.taken + 1, some q, some .refusedState, 0⟩ } } := by
  obtain ⟨-, -, hpending⟩ := (Attention.clear_iff _).mp hc
  have hserve : (s.inHand f q).serveFeed f q = (s.inHand f q).conclude f q .refusedState 0 :=
    State.serveFeed_of_off (s := s.inHand f q) hoff hq
  obtain ⟨fuel, hsettle⟩ := State.settle_of_serveStep (State.attentionFeed_serveStep (f := f) (q := q) hrun hc)
  change _ = ((s.inHand f q).serveFeed f q).settleFor fuel at hsettle
  rw [hsettle, hserve, State.settleFor_front (State.conclude_quiet (State.inHand_onlyFeed hc f q) ..)]
  exact State.conclude_inHand_front (hpending f) ..

/-- Settles O38. -/
theorem feedRequestsRefused : Obligations.FeedRequestsRefused := by
  intro f s hrun
  refine ⟨fun hpending hquiet p hp => ?pending, fun hc hoff p hp => ?off⟩
  case pending =>
    have hcommand : p.2 = p.1.command (maskOf f) := by
      simp only [List.mem_cons, List.not_mem_nil, or_false] at hp
      rcases hp with rfl | rfl | rfl | rfl | rfl | rfl | rfl | rfl <;> rfl
    rw [hcommand, exec_command]
    exact ⟨_, rfl, State.settle_attentionFeed_pending hrun hpending hquiet p.1⟩
  case off =>
    have hcommand : p.2 = p.1.command (maskOf f) ∧ p.1.refusedOff = true := by
      simp only [List.mem_cons, List.not_mem_nil, or_false] at hp
      rcases hp with rfl | rfl | rfl | rfl | rfl <;> exact ⟨rfl, rfl⟩
    rw [hcommand.1, exec_command]
    exact ⟨_, rfl, State.settle_attentionFeed_off hrun hc hoff hcommand.2⟩

end Sys2Proof.Machine
end


section
/-! Settings blocks: which field of a block decides (R155), and what its fields are brought to (R156, section 11.3). -/

namespace Sys2Proof.Machine

/-! ## Code values (section 11.8) -/

def framingCodes : List (Nat × Framing) := [(1, .marked), (2, .counted)]

def rateCodes : List (Nat × RateClass) := [(1, .fps25), (2, .fps50), (3, .drop30), (4, .drop60)]

theorem parseFraming_eq_some_iff {n : Nat} {v : Framing} : parseFraming n = some v ↔ (n, v) ∈ framingCodes := by
  match n with
  | 0 | n + 3 => simp [parseFraming, framingCodes]
  | 1 | 2 => simp [parseFraming, framingCodes, eq_comm]

theorem parseRate_eq_some_iff {n : Nat} {v : RateClass} : parseRate n = some v ↔ (n, v) ∈ rateCodes := by
  match n with
  | 0 | n + 5 => simp [parseRate, rateCodes]
  | 1 | 2 | 3 | 4 => simp [parseRate, rateCodes, eq_comm]

theorem parseFraming_eq_none_iff {n : Nat} : parseFraming n = none ↔ ¬∃ v, (n, v) ∈ framingCodes := by
  simp only [Option.eq_none_iff_forall_ne_some, ne_eq, parseFraming_eq_some_iff, not_exists]

theorem parseRate_eq_none_iff {n : Nat} : parseRate n = none ↔ ¬∃ v, (n, v) ∈ rateCodes := by
  simp only [Option.eq_none_iff_forall_ne_some, ne_eq, parseRate_eq_some_iff, not_exists]

/-! ## The checked numbers (R155) -/

/-- The width W is accepted. -/
def widthGood (w : Nat) : Prop := w % 2 = 0 ∧ 256 ≤ w ∧ w ≤ 2048

/-- The height H is accepted. -/
def heightGood (h : Nat) : Prop := 144 ≤ h ∧ h ≤ 1152

/-! ## The other fields (R156) -/

/-- The settings of a block with accepted framing and rate class: every field not checked is brought into its range. -/
def broughtIntoRange (bytes : List Byte) (framing : Framing) (rate : RateClass) : Settings where
  framing := framing
  rate := rate
  w := fieldAt bytes 0x04 2
  h := fieldAt bytes 0x06 2
  factor := fieldAt bytes 0x03 1
  topSkip := min 63 (fieldAt bytes 0x08 1)
  lossWindow := max 1 (min 60 (fieldAt bytes 0x09 1))
  leftSkip := min 510 (fieldAt bytes 0x0A 2 - fieldAt bytes 0x0A 2 % 2)
  tolerance := max 1 (min 500 (fieldAt bytes 0x0C 2))
  gapLimit := max 1 (fieldAt bytes 0x0E 2)
  ceiling := max 2 (min 24 (fieldAt bytes 0x10 1))
  lag := max 1 (min 8 (fieldAt bytes 0x11 1))
  dither := fieldAt bytes 0x12 1 ≠ 0
  ditherCode := min 7 (fieldAt bytes 0x13 1)
  ditherPhase := min 3 (fieldAt bytes 0x14 1)
  stride := fieldAt bytes 0x16 2

/-- The brought-in fields lie in their ranges; Gap limit and Stride are bounded by their two bytes. -/
theorem broughtIntoRange_bounds (bytes : List Byte) (framing : Framing) (rate : RateClass) :
    let n := broughtIntoRange bytes framing rate
    n.topSkip ≤ 63 ∧ (n.leftSkip % 2 = 0 ∧ n.leftSkip ≤ 510) ∧ (1 ≤ n.lossWindow ∧ n.lossWindow ≤ 60) ∧
      (1 ≤ n.tolerance ∧ n.tolerance ≤ 500) ∧ (1 ≤ n.gapLimit ∧ n.gapLimit ≤ 65535) ∧
      (2 ≤ n.ceiling ∧ n.ceiling ≤ 24) ∧ (1 ≤ n.lag ∧ n.lag ≤ 8) ∧ n.ditherCode ≤ 7 ∧ n.ditherPhase ≤ 3 ∧
      n.stride ≤ 65535 := by
  have hgap : fieldAt bytes 0x0E 2 < 65536 := fieldAt_lt ..
  have hstride : fieldAt bytes 0x16 2 < 65536 := fieldAt_lt ..
  simp only [broughtIntoRange]
  omega

/-! ## The first failing field decides (R155) -/

section
variable {bytes : List Byte}

theorem parseSettings_disabling (h : fieldAt bytes 0 1 = 0) : parseSettings bytes = .ok .disabling := if_pos h

variable (hon : fieldAt bytes 0 1 ≠ 0)
include hon

theorem parseSettings_badFraming (hf : parseFraming (fieldAt bytes 1 1) = none) : parseSettings bytes = .error 2 := by
  rw [parseSettings, if_neg hon, hf]

variable {framing : Framing} (hf : parseFraming (fieldAt bytes 1 1) = some framing)
include hf

theorem parseSettings_badRate (hr : parseRate (fieldAt bytes 2 1) = none) : parseSettings bytes = .error 3 := by
  rw [parseSettings, if_neg hon, hf, hr]

variable {rate : RateClass} (hr : parseRate (fieldAt bytes 2 1) = some rate)
include hr

theorem parseSettings_badWidth (hw : ¬widthGood (fieldAt bytes 4 2)) : parseSettings bytes = .error 4 := by
  rw [parseSettings, if_neg hon, hf, hr]
  exact if_pos hw

variable (hw : widthGood (fieldAt bytes 4 2))
include hw

theorem parseSettings_badHeight (hh : ¬heightGood (fieldAt bytes 6 2)) : parseSettings bytes = .error 5 := by
  rw [parseSettings, if_neg hon, hf, hr]
  exact (if_neg (not_not.mpr hw)).trans (if_pos hh)

variable (hh : heightGood (fieldAt bytes 6 2))
include hh

theorem parseSettings_badFactor (hfactor : fieldAt bytes 3 1 ∉ [2, 3, 4, 6, 8]) : parseSettings bytes = .error 12 := by
  rw [parseSettings, if_neg hon, hf, hr]
  exact (if_neg (not_not.mpr hw)).trans ((if_neg (not_not.mpr hh)).trans (if_pos (by simpa using hfactor)))

theorem parseSettings_enabling (hfactor : fieldAt bytes 3 1 ∈ [2, 3, 4, 6, 8]) :
    parseSettings bytes = .ok (.enabling (broughtIntoRange bytes framing rate)) := by
  have hclamp (lo hi v : Nat) : clamp lo hi v = max lo (min hi v) := by rw [clamp, Nat.min_comm]
  have heven (v : Nat) : v / 2 * 2 = v - v % 2 := by omega
  have hdither (v : Nat) : (v != 0) = decide (v ≠ 0) := by rw [decide_not]; rfl
  rw [parseSettings, if_neg hon, hf, hr]
  refine (if_neg (not_not.mpr hw)).trans ((if_neg (not_not.mpr hh)).trans
    ((if_neg (not_not.mpr (by simpa using hfactor))).trans ?_))
  simp only [broughtIntoRange, hclamp, heven, hdither, Nat.zero_max]

end

/-- What a settings block can give: a disabling block, the field index of a checked field, or the settings of a block whose
checked fields all hold accepted values. -/
theorem parseSettings_cases (bytes : List Byte) : parseSettings bytes = .ok .disabling ∨
    (∃ index ∈ [2, 3, 4, 5, 12], parseSettings bytes = .error index) ∨
    ∃ framing rate, widthGood (fieldAt bytes 4 2) ∧ heightGood (fieldAt bytes 6 2) ∧ fieldAt bytes 3 1 ∈ [2, 3, 4, 6, 8] ∧
      parseSettings bytes = .ok (.enabling (broughtIntoRange bytes framing rate)) := by
  by_cases hon : fieldAt bytes 0 1 = 0
  · exact .inl (parseSettings_disabling hon)
  refine .inr ?_
  cases hf : parseFraming (fieldAt bytes 1 1) with
  | none => exact .inl ⟨2, by decide, parseSettings_badFraming hon hf⟩
  | some framing =>
    cases hr : parseRate (fieldAt bytes 2 1) with
    | none => exact .inl ⟨3, by decide, parseSettings_badRate hon hf hr⟩
    | some rate =>
      by_cases hw : widthGood (fieldAt bytes 4 2)
      · by_cases hh : heightGood (fieldAt bytes 6 2)
        · by_cases hfactor : fieldAt bytes 3 1 ∈ [2, 3, 4, 6, 8]
          · exact .inr ⟨framing, rate, hw, hh, hfactor, parseSettings_enabling hon hf hr hw hh hfactor⟩
          · exact .inl ⟨12, by decide, parseSettings_badFactor hon hf hr hw hh hfactor⟩
        · exact .inl ⟨5, by decide, parseSettings_badHeight hon hf hr hw hh⟩
      · exact .inl ⟨4, by decide, parseSettings_badWidth hon hf hr hw⟩

theorem parseSettings_error_mem {bytes : List Byte} {index : Nat} (h : parseSettings bytes = .error index) :
    index ∈ [2, 3, 4, 5, 12] := by
  rcases parseSettings_cases bytes with hoff | ⟨i, hi, herror⟩ | ⟨framing, rate, -, -, -, hon⟩
  · cases hoff.symm.trans h
  · cases herror.symm.trans h
    exact hi
  · cases hon.symm.trans h

theorem parseSettings_enabling_inv {bytes : List Byte} {n : Settings} (h : parseSettings bytes = .ok (.enabling n)) :
    ∃ framing rate, widthGood (fieldAt bytes 4 2) ∧ heightGood (fieldAt bytes 6 2) ∧
      fieldAt bytes 3 1 ∈ [2, 3, 4, 6, 8] ∧ n = broughtIntoRange bytes framing rate := by
  rcases parseSettings_cases bytes with hoff | ⟨i, -, herror⟩ | ⟨framing, rate, hw, hh, hfactor, hon⟩
  · cases hoff.symm.trans h
  · cases herror.symm.trans h
  · cases hon.symm.trans h
    exact ⟨framing, rate, hw, hh, hfactor, rfl⟩

/-- Settles O32. -/
theorem settingsInRange : Obligations.SettingsInRange := by
  intro bytes at1 at2 framings rates framingGood rateGood wGood hGood factorGood
  have framed {v : Framing} (h : (at1 1, v) ∈ framings) : parseFraming (at1 1) = some v := parseFraming_eq_some_iff.mpr h
  have rated {v : RateClass} (h : (at1 2, v) ∈ rates) : parseRate (at1 2) = some v := parseRate_eq_some_iff.mpr h
  refine ⟨parseSettings_disabling, fun hon => ⟨?framing, ?rate, ?w, ?h, ?factor, ?good⟩, fun n hn => ?range,
    fun index => parseSettings_error_mem⟩
  case framing => exact fun hf => parseSettings_badFraming hon (parseFraming_eq_none_iff.mpr hf)
  case rate => exact fun ⟨_, hf⟩ hr => parseSettings_badRate hon (framed hf) (parseRate_eq_none_iff.mpr hr)
  case w => exact fun ⟨_, hf⟩ ⟨_, hr⟩ => parseSettings_badWidth hon (framed hf) (rated hr)
  case h => exact fun ⟨_, hf⟩ ⟨_, hr⟩ => parseSettings_badHeight hon (framed hf) (rated hr)
  case factor => exact fun ⟨_, hf⟩ ⟨_, hr⟩ => parseSettings_badFactor hon (framed hf) (rated hr)
  case good => exact fun _ _ hf hr => parseSettings_enabling hon (framed hf) (rated hr)
  case range =>
    obtain ⟨framing, rate, hw, hh, hfactor, rfl⟩ := parseSettings_enabling_inv hn
    exact ⟨hw, hh, hfactor, broughtIntoRange_bounds ..⟩

end Sys2Proof.Machine
end


section
/-! Writes of PAGE_BASE and of PART_STATUS (R165, R175). -/

namespace Sys2Proof.Machine

/-! ## The two words of PAGE_BASE (R165) -/

theorem registerWord_pageLow (s : State) : registerWord s 0x00 = s.front.pageBase.extractLsb' 0 32 := rfl

theorem registerWord_pageHigh (s : State) : registerWord s 0x04 = s.front.pageBase.extractLsb' 32 32 := rfl

theorem extractLsb'_low_append (high low : BitVec 32) : (high ++ low).extractLsb' 0 32 = low := by
  rw [BitVec.extractLsb'_append_eq_of_add_le (by decide), BitVec.extractLsb'_eq_self]

theorem extractLsb'_high_append (high low : BitVec 32) : (high ++ low).extractLsb' 32 32 = high := by
  rw [BitVec.extractLsb'_append_eq_of_le (by decide), BitVec.extractLsb'_eq_self]

/-- A write of one word of PAGE_BASE replaces that word and keeps the other. -/
theorem Front.setPage_words (high : Bool) (word : BitVec 32) (x : Front) :
    (x.setPage high word).pageBase.extractLsb' 0 32 = (if high then x.pageBase.extractLsb' 0 32 else word) ∧
      (x.setPage high word).pageBase.extractLsb' 32 32 = if high then word else x.pageBase.extractLsb' 32 32 := by
  cases high with
  | false => exact ⟨extractLsb'_low_append .., extractLsb'_high_append ..⟩
  | true => exact ⟨extractLsb'_low_append .., extractLsb'_high_append ..⟩

/-- R165: in STANDBY with an empty write list the write is taken. -/
theorem exec_pageBaseWrite_taken {s : State} (hr : s.atRest = true)
    (h : s.front.attention.part = .standby ∧ s.eng.port.writes = []) (high : Bool) (word : BitVec 32) :
    exec (.pageBaseWrite high word) s = .next (s.onFront (Front.setPage high word)) := by
  show execPageBaseWrite high word s = _
  rw [execPageBaseWrite, if_pos h]
  exact congrArg _ (State.settle_of_front hr rfl rfl)

theorem exec_pageBaseWrite_ignored {s : State} (hr : s.atRest = true)
    (h : ¬(s.front.attention.part = .standby ∧ s.eng.port.writes = [])) (high : Bool) (word : BitVec 32) :
    exec (.pageBaseWrite high word) s = .next s := by
  show execPageBaseWrite high word s = _
  rw [execPageBaseWrite, if_neg h, State.settle_of_atRest hr]

/-! ## PART_STATUS (R175) -/

theorem State.settle_onFlags {s : State} (hr : s.atRest = true) (g : StatusFlags → StatusFlags) :
    (s.onFlags g).settle = s.onFlags g := State.settle_of_front hr rfl rfl

/-- Settles O9. -/
theorem pageBaseAndStatusWrites : Obligations.PageBaseAndStatusWrites := by
  refine ⟨fun high word s hr => ⟨fun h => ?taken, fun h => exec_pageBaseWrite_ignored hr h ..⟩, fun word s hr => ?status⟩
  case taken =>
    obtain ⟨hlow, hhigh⟩ := s.front.setPage_words high word
    exact ⟨_, exec_pageBaseWrite_taken hr h .., rfl, hlow, hhigh⟩
  case status => exact congrArg Host.Outcome.next (State.settle_onFlags hr (StatusFlags.written word))

end Sys2Proof.Machine
end


section
/-! ATTENTION writes: which are dropped, and which request a whole word is (R159, R161, sections 11.1 and 11.8). -/

namespace Sys2Proof.Machine

/-! ## Dropped writes (R159) -/

theorem State.settle_dropAttention {s : State} (hr : s.atRest = true) :
    s.dropAttention.settle = s.onFlags fun g => { g with attentionIgnored := true } := State.settle_onFlags hr _

/-- A feed request outside RUNNING, or for no feed, is dropped. -/
theorem State.attentionFeed_of_dropped {s : State} {mask : BitVec 16}
    (h : s.front.attention.part ≠ .running ∨ mask = 0) (q : FeedRequest) : s.attentionFeed q mask = s.dropAttention :=
  if_neg fun ⟨hrun, hmask⟩ => h.elim (· hrun) hmask

/-- Outside RUNNING STANDBY and TIME_LOAD are dropped; in STARTING every global request is. -/
theorem State.attentionGlobal_of_dropped {s : State} {q : GlobalRequest} (hrun : s.front.attention.part ≠ .running)
    (hq : q ≠ .start ∨ s.front.attention.part = .starting) : s.attentionGlobal q = s.dropAttention := by
  unfold State.attentionGlobal
  cases hp : s.front.attention.part with
  | running => exact absurd hp hrun
  | starting => rfl
  | standby => exact if_neg (hq.resolve_right (by rw [hp]; nofun))

/-! ## The whole word (sections 11.1 and 11.8) -/

theorem attentionMask_append (reserved code : BitVec 8) (mask : BitVec 16) :
    attentionMask (reserved ++ code ++ mask) = mask := by
  rw [attentionMask, BitVec.extractLsb'_append_eq_of_add_le (by decide), BitVec.extractLsb'_eq_self]

theorem attentionCode_append (reserved code : BitVec 8) (mask : BitVec 16) :
    attentionCode (reserved ++ code ++ mask) = code.toNat := by
  rw [attentionCode, BitVec.extractLsb'_append_eq_of_le (by decide), BitVec.extractLsb'_append_eq_of_add_le (by decide),
    BitVec.extractLsb'_eq_self]

/-- The codes outside 1 to 8 and 16 to 18 name no request. -/
theorem parseRequest_eq_none {n : Nat} (h : n = 0 ∨ 8 < n ∧ n < 16 ∨ 18 < n) : parseRequest n = none := by
  unfold parseRequest
  split
  case h_12 => rfl
  all_goals omega

/-- The command that carries a global request. -/
def GlobalRequest.command (mask : BitVec 16) : GlobalRequest → Instr
  | .start => .start mask
  | .standby => .standby mask
  | .timeLoad => .timeLoad mask

theorem exec_globalCommand (q : GlobalRequest) (mask : BitVec 16) (s : State) :
    exec (q.command mask) s = .next (s.attentionGlobal q).settle := by
  cases q <;> rfl

/-- The command that carries a request. -/
def RequestCode.command (mask : BitVec 16) : RequestCode → Instr
  | .feed q => q.command mask
  | .global q => q.command mask

/-- R159: a word whose code names a request is taken as that request's command. -/
theorem exec_attentionIgnored_of_some {word : BitVec 32} {q : RequestCode}
    (h : parseRequest (attentionCode word) = some q) (s : State) :
    exec (.attentionIgnored word) s = exec (q.command (attentionMask word)) s := by
  show Host.Outcome.next (s.attentionWrite word).settle = _
  rw [State.attentionWrite, h]
  cases q with
  | feed q => exact (exec_command ..).symm
  | global q => exact (exec_globalCommand ..).symm

theorem exec_attentionIgnored_of_none {word : BitVec 32} (h : parseRequest (attentionCode word) = none) (s : State) :
    exec (.attentionIgnored word) s = .next s.dropAttention.settle := by
  show Host.Outcome.next (s.attentionWrite word).settle = _
  rw [State.attentionWrite, h]

/-- Settles O37. -/
theorem attentionWriteDecoded : Obligations.AttentionWriteDecoded := by
  intro s mask
  refine ⟨fun hr hdrop c hc => ?feed, fun hr hrun c hc => ?global, fun hr hpart => ?start,
    fun reserved code => ⟨fun hr hcode => ?noRequest, fun p hp hcode => ?request⟩⟩
  case feed =>
    have hcommand : ∃ q : FeedRequest, c = q.command mask := by
      simp only [List.mem_cons, List.not_mem_nil, or_false] at hc
      rcases hc with rfl | rfl | rfl | rfl | rfl | rfl | rfl | rfl
      exacts [⟨.load, rfl⟩, ⟨.loadCommon, rfl⟩, ⟨.arm, rfl⟩, ⟨.stop, rfl⟩, ⟨.halt, rfl⟩, ⟨.abort, rfl⟩, ⟨.refill, rfl⟩,
        ⟨.feedReset, rfl⟩]
    obtain ⟨q, rfl⟩ := hcommand
    rw [exec_command, State.attentionFeed_of_dropped hdrop, State.settle_dropAttention hr]
  case global =>
    have hcommand : ∃ q : GlobalRequest, q ≠ .start ∧ c = q.command mask := by
      simp only [List.mem_cons, List.not_mem_nil, or_false] at hc
      rcases hc with rfl | rfl
      exacts [⟨.standby, nofun, rfl⟩, ⟨.timeLoad, nofun, rfl⟩]
    obtain ⟨q, hq, rfl⟩ := hcommand
    rw [exec_globalCommand, State.attentionGlobal_of_dropped hrun (.inl hq), State.settle_dropAttention hr]
  case start =>
    show exec (GlobalRequest.command mask .start) s = _
    rw [exec_globalCommand, State.attentionGlobal_of_dropped (by rw [hpart]; nofun) (.inr hpart),
      State.settle_dropAttention hr]
  case noRequest =>
    have hnone : parseRequest code.toNat = none := parseRequest_eq_none (by simpa [BitVec.toNat_eq] using hcode)
    rw [exec_attentionIgnored_of_none (by rw [attentionCode_append, hnone]), State.settle_dropAttention hr]
  case request =>
    have hcommand : ∃ q, parseRequest p.1.toNat = some q ∧ p.2 = q.command mask := by
      simp only [List.mem_cons, List.not_mem_nil, or_false] at hp
      rcases hp with rfl | rfl | rfl | rfl | rfl | rfl | rfl | rfl | rfl | rfl | rfl <;> exact ⟨_, rfl, rfl⟩
    obtain ⟨q, hq, hp⟩ := hcommand
    rw [exec_attentionIgnored_of_some (q := q) (by rw [attentionCode_append, hcode, hq]), attentionMask_append, hp]

end Sys2Proof.Machine
end


section
/-! Writes of NOTICE and of NOTICE_MASK (R171, R174): what leaves the pending notices, and when a message is owed. -/

namespace Sys2Proof.Machine

/-! ## The masked value (R171, R174) -/

/-- R171, R174: bit `i` of the masked value. -/
theorem Notices.getLsbD_masked (mask : BitVec 17) (n : Notices) (i : Fin 17) :
    (n.word &&& mask).getLsbD i.val = (n.bit i && mask.getLsbD i.val) := by
  rw [BitVec.getLsbD_and, Notices.word, BitVec.getLsbD_ofFnLE, dif_pos i.isLt]

/-- R174: the masked value is nonzero when some notice that the mask lets through is pending. -/
theorem Notices.maskedOn_iff (mask : BitVec 17) (n : Notices) :
    n.maskedOn mask = true ↔ ∃ i : Fin 17, (n.bit i && mask.getLsbD i.val) = true := by
  refine bne_iff_ne.trans ⟨fun hne => ?_, fun ⟨i, hi⟩ hzero => ?_⟩
  · by_contra hnone
    refine hne (BitVec.eq_of_getLsbD_eq fun i hi => ?_)
    have hbit := Bool.eq_false_of_not_eq_true fun h => hnone ⟨⟨i, hi⟩, h⟩
    exact (n.getLsbD_masked mask ⟨i, hi⟩).trans (hbit.trans BitVec.getLsbD_zero.symm)
  · rw [← n.getLsbD_masked, hzero] at hi
    exact Bool.false_ne_true (BitVec.getLsbD_zero.symm.trans hi)

/-- The masked value does not become nonzero when no feed gets its first cause and the global mark stays. -/
theorem Notices.maskedOn_of_fewer {mask : BitVec 17} {n n' : Notices}
    (hcauses : ∀ f : FeedId, n'.causes[f] ≠ 0 → n.causes[f] ≠ 0) (hmark : n'.globalMark = n.globalMark)
    (h : n'.maskedOn mask = true) : n.maskedOn mask = true := by
  obtain ⟨i, hi⟩ := (n'.maskedOn_iff mask).mp h
  obtain ⟨hbit, hmask⟩ := (Bool.and_eq_true _ _).mp hi
  refine (n.maskedOn_iff mask).mpr ⟨i, (Bool.and_eq_true _ _).mpr ⟨?_, hmask⟩⟩
  unfold Notices.bit at hbit ⊢
  split at hbit
  · next hi => rw [dif_pos hi, bne_iff_ne]; exact hcauses ⟨i, hi⟩ (bne_iff_ne.mp hbit)
  · next hi => rw [dif_neg hi, ← hmark]; exact hbit

/-! ## What owes a message (R174) -/

/-- Without a change of the masked value from zero to nonzero no message is owed. -/
theorem Engine.oweMessage_of_not_rising {x : Front} {b : Bool} {e : Engine}
    (h : e.notices.maskedOn x.noticeMask = true → b = true) : e.oweMessage x b = e := by
  rw [Engine.oweMessage, if_neg]
  intro hrises
  obtain ⟨hb, hon⟩ := (Bool.and_eq_true _ _).mp hrises
  rw [h hon] at hb
  cases hb

/-- R174: a change of the masked value from zero to nonzero asks a message behind the writes of the list in RUNNING, and
sets the message-owed mark in the other part states. -/
theorem Engine.oweMessage_result (x : Front) (b : Bool) (e : Engine) :
    let rises := !b && e.notices.maskedOn x.noticeMask
    (e.oweMessage x b).port.writes =
        e.port.writes ++ (if rises && x.attention.part == .running then [WriteRequest.message] else []) ∧
      (e.oweMessage x b).notices.messageOwed =
        (e.notices.messageOwed || (rises && x.attention.part != .running)) := by
  intro rises
  unfold Engine.oweMessage
  split
  · next hrises =>
    have hrises : rises = true := hrises
    split
    · next hrun =>
      rw [Engine.ask_notices, hrises, hrun]
      exact ⟨rfl, (Bool.or_false _).symm⟩
    · next hrun =>
      rw [hrises, beq_false_of_ne hrun, bne, beq_false_of_ne hrun]
      exact ⟨(List.append_nil _).symm, (Bool.or_true _).symm⟩
  · next hrises =>
    have hrises : rises = false := Bool.eq_false_of_not_eq_true hrises
    rw [hrises]
    exact ⟨(List.append_nil _).symm, (Bool.or_false _).symm⟩

/-- A message owed leaves the causes and the global mark, and so the masked value, as they are. -/
theorem Engine.oweMessage_pending (x : Front) (b : Bool) (e : Engine) :
    (e.oweMessage x b).notices.globalMark = e.notices.globalMark ∧
      ∀ mask, (e.oweMessage x b).notices.maskedOn mask = e.notices.maskedOn mask := by
  rw [Engine.oweMessage_eq]
  exact ⟨rfl, fun _ => rfl⟩

theorem Engine.oweMessage_asksOnly (x : Front) (b : Bool) (e : Engine) : e.AsksOnly (e.oweMessage x b) := by
  unfold Engine.AsksOnly
  rw [Engine.oweMessage_eq]

/-- R174: a masked value of zero clears the message-owed mark, and nothing else changes. -/
theorem Engine.settleOwed_eq (mask : BitVec 17) (e : Engine) : e.settleOwed mask =
    { e with notices := { e.notices with messageOwed := e.notices.maskedOn mask && e.notices.messageOwed } } := by
  unfold Engine.settleOwed
  split
  · next h => rw [h, Bool.true_and]
  · next h => rw [Bool.eq_false_of_not_eq_true h, Bool.false_and]

theorem Engine.settleOwed_asksOnly (mask : BitVec 17) (e : Engine) : e.AsksOnly (e.settleOwed mask) := by
  rw [Engine.settleOwed_eq]
  rfl

/-! ## What leaves the notices (R171) -/

/-- R171: a 1 in the global bit clears the global mark, and nothing else changes. -/
theorem Engine.clearGlobal_eq (word : BitVec 32) (e : Engine) : e.clearGlobal word =
    { e with notices := { e.notices with globalMark := e.notices.globalMark && !word.getLsbD 16 } } := by
  unfold Engine.clearGlobal
  split
  · next h => rw [h, Bool.not_true, Bool.and_false]
  · next h => rw [Bool.eq_false_of_not_eq_true h, Bool.not_false, Bool.and_true]

/-- From engine `e` to `e'`, at most writes other than interrupt messages have been asked, and the global mark has
stayed. -/
structure Engine.AsksNoMessage (e e' : Engine) : Prop where
  asksOnly : e.AsksOnly e'
  messages : e'.port.writes.count .message = e.port.writes.count .message
  globalMark : e'.notices.globalMark = e.notices.globalMark

theorem Engine.AsksNoMessage.refl (e : Engine) : e.AsksNoMessage e := ⟨.refl e, rfl, rfl⟩

theorem Engine.AsksNoMessage.trans {a b c : Engine} (h : a.AsksNoMessage b) (k : b.AsksNoMessage c) :
    a.AsksNoMessage c :=
  ⟨h.asksOnly.trans k.asksOnly, k.messages.trans h.messages, k.globalMark.trans h.globalMark⟩

theorem Engine.ask_asksNoMessage {w : WriteRequest} (hw : w ≠ .message) (e : Engine) : e.AsksNoMessage (e.ask w) := by
  refine ⟨Engine.ask_asksOnly .., ?_, by rw [Engine.ask_notices]⟩
  unfold Engine.ask
  split
  · rfl
  · exact (List.count_append ..).trans (by rw [List.count_singleton, beq_false_of_ne hw]; rfl)

/-- A change of a cause set that gives the feed no first cause asks no message. -/
theorem Engine.setCauses_asksNoMessage {x : Front} {f : FeedId} {c : BitVec 9} {e : Engine}
    (hc : c ≠ 0 → e.notices.causes[f] ≠ 0) : e.AsksNoMessage (e.setCauses x f c) := by
  unfold Engine.setCauses
  split
  · exact .refl e
  · let changed : Engine := { e with notices := { e.notices with causes := upd e.notices.causes f fun _ => c } }
    have hchanged : e.AsksNoMessage changed := ⟨rfl, rfl, rfl⟩
    have hfewer : ∀ g : FeedId, changed.notices.causes[g] ≠ 0 → e.notices.causes[g] ≠ 0 := by
      intro g hg
      by_cases hgf : g = f
      · subst hgf
        exact hc (by rwa [upd_same] at hg)
      · rwa [upd_other _ hgf] at hg
    have hmasked : changed.notices.maskedOn x.noticeMask = true → e.notices.maskedOn x.noticeMask = true :=
      Notices.maskedOn_of_fewer hfewer rfl
    show e.AsksNoMessage (Engine.oweMessage x _ (if x.attention.part = .running then changed.ask (.mirror f) else changed))
    split
    · rw [Engine.oweMessage_of_not_rising (by rwa [Engine.ask_notices])]
      exact hchanged.trans (Engine.ask_asksNoMessage (w := .mirror f) nofun _)
    · rw [Engine.oweMessage_of_not_rising hmasked]
      exact hchanged

theorem Engine.clearEvents_asksNoMessage (x : Front) (e : Engine) (f : FeedId) :
    e.AsksNoMessage (e.clearEvents x f) := by
  refine Engine.setCauses_asksNoMessage fun h hnone => h ?_
  rw [hnone]
  exact BitVec.zero_and

/-- R169, R171: the causes that stay when the event causes leave are the condition causes. -/
theorem Engine.clearEvents_causes (x : Front) (e : Engine) (f : FeedId) :
    (e.clearEvents x f).notices.causes = upd e.notices.causes f (· &&& 0x1C0) :=
  Engine.setCauses_causes ..

theorem Engine.foldl_clearEvents_asksNoMessage (x : Front) (l : List FeedId) (e : Engine) :
    e.AsksNoMessage (l.foldl (Engine.clearEvents x) e) := by
  induction l generalizing e with
  | nil => exact .refl e
  | cons g l ih => exact (Engine.clearEvents_asksNoMessage x e g).trans (ih _)

/-- The feeds of the list keep their condition causes alone, the others all their causes. -/
theorem Engine.foldl_clearEvents_causes (x : Front) (l : List FeedId) (e : Engine) (f : FeedId) :
    (l.foldl (Engine.clearEvents x) e).notices.causes[f] =
      if f ∈ l then e.notices.causes[f] &&& 0x1C0 else e.notices.causes[f] := by
  induction l generalizing e with
  | nil => rfl
  | cons g l ih =>
    rw [List.foldl_cons, ih, Engine.clearEvents_causes]
    by_cases hfg : f = g
    · subst hfg
      rw [upd_same, if_pos List.mem_cons_self, BitVec.and_assoc, BitVec.and_self, ite_self]
    · simp only [upd_other _ hfg, List.mem_cons, hfg, false_or]

theorem mem_noticeFeeds (word : BitVec 32) (f : FeedId) : f ∈ noticeFeeds word ↔ word.getLsbD f.val = true := by
  rw [noticeFeeds, List.mem_filter]
  exact and_iff_right (List.mem_finRange f)

/-! ## NOTICE (R171) -/

/-- The engine after a NOTICE write. -/
def Engine.noticeWritten (x : Front) (word : BitVec 32) (e : Engine) : Engine :=
  (((noticeFeeds word).foldl (Engine.clearEvents x) e).clearGlobal word).settleOwed x.noticeMask

/-- The last steps of a NOTICE write change the notices' two marks alone. -/
theorem Engine.noticeWritten_eq (x : Front) (word : BitVec 32) (e : Engine) :
    let cleared := (noticeFeeds word).foldl (Engine.clearEvents x) e
    ∃ owed, e.noticeWritten x word = { cleared with notices :=
      ⟨cleared.notices.causes, cleared.notices.globalMark && !word.getLsbD 16, owed⟩ } := by
  intro cleared
  refine ⟨((cleared.clearGlobal word).settleOwed x.noticeMask).notices.messageOwed, ?_⟩
  rw [Engine.noticeWritten, Engine.settleOwed_eq, Engine.clearGlobal_eq]

theorem Engine.noticeWritten_asksOnly (x : Front) (word : BitVec 32) (e : Engine) :
    e.AsksOnly (e.noticeWritten x word) := by
  obtain ⟨owed, hwritten⟩ := e.noticeWritten_eq x word
  refine (Engine.foldl_clearEvents_asksNoMessage x (noticeFeeds word) e).asksOnly.trans ?_
  rw [hwritten]
  rfl

theorem Engine.noticeWritten_causes (x : Front) (word : BitVec 32) (e : Engine) (f : FeedId) :
    (e.noticeWritten x word).notices.causes[f] =
      if word.getLsbD f.val then e.notices.causes[f] &&& 0x1C0 else e.notices.causes[f] := by
  obtain ⟨owed, hwritten⟩ := e.noticeWritten_eq x word
  simp only [hwritten, Engine.foldl_clearEvents_causes, mem_noticeFeeds]

/-- R171: a NOTICE write asks no message, and clears the global mark by the global bit. -/
theorem Engine.noticeWritten_marks (x : Front) (word : BitVec 32) (e : Engine) :
    (e.noticeWritten x word).notices.globalMark = (e.notices.globalMark && !word.getLsbD 16) ∧
      (e.noticeWritten x word).port.writes.count .message = e.port.writes.count .message := by
  obtain ⟨owed, hwritten⟩ := e.noticeWritten_eq x word
  have hcleared := Engine.foldl_clearEvents_asksNoMessage x (noticeFeeds word) e
  rw [hwritten]
  exact ⟨congrArg (· && _) hcleared.globalMark, hcleared.messages⟩

/-! ## NOTICE_MASK (R174) -/

theorem State.setMask_asksOnly (word : BitVec 32) (s : State) : s.eng.AsksOnly (s.setMask word).eng :=
  (Engine.oweMessage_asksOnly ..).trans (Engine.settleOwed_asksOnly ..)

theorem State.setMask_front (word : BitVec 32) (s : State) :
    (s.setMask word).front = { s.front with noticeMask := word.setWidth 17 } := rfl

/-- The write asks what a message owed by the masked value's change asks. -/
theorem State.setMask_eng (word : BitVec 32) (s : State) :
    (s.setMask word).eng = (s.eng.oweMessage (s.setMask word).front (s.eng.notices.maskedOn s.front.noticeMask)).settleOwed
      (word.setWidth 17) := rfl

/-! ## Both writes at rest -/

/-- With the part at rest and the link busy, writes asked and changes of the notices give rise to no act. -/
theorem State.settle_of_asksOnly {s s' : State} (h : s.atRest = true) (hb : s.linkBusy = true)
    (ha : s'.front.attention = s.front.attention) (he : s.eng.AsksOnly s'.eng) : s'.settle = s' := by
  refine State.settle_of_same h hb ha he.sameWork fun f hf => ?_
  rw [he]
  exact hf

theorem exec_noticeWrite {s : State} (h : s.atRest = true) (hb : s.linkBusy = true) (word : BitVec 32) :
    exec (.noticeWrite word) s = .next (s.act fun x e => e.noticeWritten x word) :=
  congrArg Host.Outcome.next (State.settle_of_asksOnly h hb rfl (Engine.noticeWritten_asksOnly ..))

theorem exec_noticeMaskWrite {s : State} (h : s.atRest = true) (hb : s.linkBusy = true) (word : BitVec 32) :
    exec (.noticeMaskWrite word) s = .next (s.setMask word) :=
  congrArg Host.Outcome.next (State.settle_of_asksOnly h hb rfl (State.setMask_asksOnly ..))

/-- Settles O10. -/
theorem noticeRegisterWrites : Obligations.NoticeRegisterWrites := by
  refine ⟨fun word s hr hb => ?notice, fun word s hr hb => ?mask⟩
  case notice =>
    have hasks := s.eng.noticeWritten_asksOnly s.front word
    have hwork := hasks.sameWork
    obtain ⟨hmark, hmessages⟩ := s.eng.noticeWritten_marks s.front word
    refine ⟨_, exec_noticeWrite hr hb word, s.eng.noticeWritten_causes s.front word, hmark, hmessages, rfl, rfl, hwork.takes,
      hwork.slots, hwork.held, hwork.places, hasks.reads, ?_⟩
    show (s.eng.noticeWritten s.front word).arbiter = s.eng.arbiter
    rw [hasks]
  case mask =>
    intro rises
    have hasks := s.setMask_asksOnly word
    have hrises : rises = (!s.eng.notices.maskedOn s.front.noticeMask && s.eng.notices.maskedOn (word.setWidth 17)) :=
      congrArg (· && _) (Bool.not_not _).symm
    obtain ⟨hwrites, howed⟩ :=
      s.eng.oweMessage_result (s.setMask word).front (s.eng.notices.maskedOn s.front.noticeMask)
    obtain ⟨hmark, hmasked⟩ :=
      s.eng.oweMessage_pending (s.setMask word).front (s.eng.notices.maskedOn s.front.noticeMask)
    have hcauses := s.eng.oweMessage_causes (s.setMask word).front (s.eng.notices.maskedOn s.front.noticeMask)
    refine ⟨_, exec_noticeMaskWrite hr hb word, s.setMask_front word, ?writes, ?owed, ?causes, ?mark, rfl,
      hasks.sameWork.takes, hasks.sameWork.slots⟩
    all_goals rw [State.setMask_eng, Engine.settleOwed_eq]
    case writes => rw [hrises]; exact hwrites
    case owed =>
      rw [hrises, hmasked, howed]
      rfl
    case causes => exact hcauses
    case mark => exact hmark

end Sys2Proof.Machine
end


section
/-! A step runs the command at the front of the queue, and every command completes with the queue as it stood. First, the
queue under each change of the state that a command is made of; most of these changes are already known to keep it. -/

namespace Sys2Proof.Machine

/-! ## The front command -/

/-- Settles O1. -/
theorem stepRunsFrontCommand : Obligations.StepRunsFrontCommand := fun _ _ _ h => step_of_cons h

/-! ## Answers, services and the settling of a step -/

@[simp] theorem State.settle_pending (s : State) : s.settle.pending = s.pending := (State.settle_kept s).pending

@[simp] theorem State.globalAnswer_pending (q : GlobalRequest) (r : Result) (s : State) :
    (s.globalAnswer q r).pending = s.pending := (State.globalAnswer_kept q r s).pending

@[simp] theorem State.conclude_pending (f : FeedId) (q : FeedRequest) (r : Result) (n : Nat) (s : State) :
    (s.conclude f q r n).pending = s.pending := (State.conclude_kept f q r n s).pending

@[simp] theorem State.serveReading_pending (v : Service) (r : ReadRequest) (s : State) :
    (s.serveReading v r).pending = s.pending := (State.serveReading_kept v r s).pending

@[simp] theorem State.endService_pending (s : State) : s.endService.pending = s.pending := rfl

/-! ## ATTENTION writes (R159 to R161) -/

@[simp] theorem State.dropAttention_pending (s : State) : s.dropAttention.pending = s.pending := rfl

theorem State.takeFeed_kept (q : FeedRequest) (s : State) (f : FeedId) : s.Kept (s.takeFeed q f) := by
  unfold State.takeFeed
  split
  · exact State.onAttention_kept ..
  · exact State.answer_kept ..

@[simp] theorem State.attentionFeed_pending (q : FeedRequest) (mask : BitVec 16) (s : State) :
    (s.attentionFeed q mask).pending = s.pending := by
  unfold State.attentionFeed
  split
  · exact (State.foldl_kept (State.takeFeed_kept q) _ s).pending
  · exact s.dropAttention_pending

@[simp] theorem State.startFromStandby_pending (s : State) : s.startFromStandby.pending = s.pending := by
  unfold State.startFromStandby
  split <;> simp

@[simp] theorem State.takeGlobal_pending (q : GlobalRequest) (s : State) : (s.takeGlobal q).pending = s.pending := by
  unfold State.takeGlobal
  split <;> simp

@[simp] theorem State.attentionGlobal_pending (q : GlobalRequest) (s : State) :
    (s.attentionGlobal q).pending = s.pending := by
  unfold State.attentionGlobal
  split
  · exact s.takeGlobal_pending q
  · exact s.dropAttention_pending
  · split <;> simp

@[simp] theorem State.attentionWrite_pending (word : BitVec 32) (s : State) :
    (s.attentionWrite word).pending = s.pending := by
  unfold State.attentionWrite
  split <;> simp

/-! ## Link states, settings and losses (R6, R21) -/

@[simp] theorem State.sync_pending (f : FeedId) (s : State) : (s.sync f).pending = s.pending := rfl

@[simp] theorem State.setLink_pending (f : FeedId) (l : Link) (s : State) : (s.setLink f l).pending = s.pending :=
  (State.setLink_sameTime f l s).pending

@[simp] theorem State.closeFrame_pending (f : FeedId) (s : State) : (s.closeFrame f).pending = s.pending :=
  (State.closeFrame_sameTime f s).pending

@[simp] theorem State.applyPending_pending (f : FeedId) (s : State) : (s.applyPending f).pending = s.pending :=
  (State.applyPending_sameTime f s).pending

@[simp] theorem State.leaveLocked_pending (f : FeedId) (l : Link) (cause : LossCause) (s : State) :
    (s.leaveLocked f l cause).pending = s.pending := (State.leaveLocked_sameTime f l cause s).pending

@[simp] theorem State.handOver_pending (f : FeedId) (b : Block) (s : State) : (s.handOver f b).pending = s.pending := by
  unfold State.handOver
  dsimp only
  split <;> simp

/-! ## Completed reads (R147) -/

@[simp] theorem State.endRead_pending (s : State) : s.endRead.pending = s.pending := rfl

@[simp] theorem State.settingsRead_pending (f : FeedId) (q : FeedRequest) (bytes : List Byte) (s : State) :
    (s.settingsRead f q bytes).pending = s.pending := by
  unfold State.settingsRead
  dsimp only
  split
  · simp
  · split <;> simp

@[simp] theorem State.timeValueRead_pending (v : Count) (s : State) : (s.timeValueRead v).pending = s.pending := by
  unfold State.timeValueRead
  split <;> simp

@[simp] theorem State.pageHeaderRead_pending (bytes : List Byte) (s : State) :
    (s.pageHeaderRead bytes).pending = s.pending := by
  unfold State.pageHeaderRead
  split
  · simp [State.enterRunning]
  · simp [State.failStart]

@[simp] theorem State.armFails_pending (f : FeedId) (r : Result) (s : State) : (s.armFails f r).pending = s.pending :=
  s.endService.conclude_pending f .arm r 0

@[simp] theorem State.armAskEntry_pending (f : FeedId) (sheet : HostAddr) (h : SheetHeader) (n : Nat) (l : List Nat)
    (s : State) : (s.armAskEntry f sheet h n l).pending = s.pending := State.serveReading_pending ..

@[simp] theorem State.armAddressRead_pending (f : FeedId) (sheet : HostAddr) (s : State) :
    (s.armAddressRead f sheet).pending = s.pending := by
  unfold State.armAddressRead
  split
  · simp
  · split <;> simp

@[simp] theorem State.armHeaderRead_pending (f : FeedId) (sheet : HostAddr) (bytes : List Byte) (s : State) :
    (s.armHeaderRead f sheet bytes).pending = s.pending := by
  unfold State.armHeaderRead
  split
  · simp
  · split <;> simp

@[simp] theorem State.armEntryRead_pending (f : FeedId) (sheet : HostAddr) (h : SheetHeader) (n : Nat) (l : List Nat)
    (entry : HostAddr × Nat) (s : State) : (s.armEntryRead f sheet h n l entry).pending = s.pending := by
  unfold State.armEntryRead
  split
  · simp [State.armTaken]
  · split <;> simp

@[simp] theorem State.readArrives_pending (r : ReadRequest) (bytes : List Byte) (s : State) :
    (s.readArrives r bytes).pending = s.pending := by
  cases r with
  | armEntry f sheet n =>
    simp only [State.readArrives]
    split <;> simp
  | pageHeader | timeValue | settings | common | stagedAddress | sheetHeader | posted | entry => simp [State.readArrives]

@[simp] theorem State.endOutstanding_pending (o : Outstanding) (bytes : List Byte) (s : State) :
    (s.endOutstanding o bytes).pending = s.pending := by
  have hfree : (if bytes.length < (o.request.span s.front.pageBase).2 then s.useFree else s).pending = s.pending := by
    split <;> rfl
  unfold State.endOutstanding
  dsimp only
  split
  · simp [hfree]
  · exact hfree

@[simp] theorem State.failOutstanding_pending (o : Outstanding) (s : State) :
    (s.failOutstanding o).pending = s.pending := (State.failOutstanding_sameTime o s).pending

@[simp] theorem State.completeOutstanding_pending (o : Outstanding) (r : Reply) (s : State) :
    (s.completeOutstanding o r).pending = s.pending := by
  cases r with
  | data bytes => exact s.endOutstanding_pending o bytes
  | error => exact s.failOutstanding_pending o

/-! ## Symbols and lines (R1 to R3, R11, R12) -/

@[simp] theorem State.breakHeader_pending (f : FeedId) (s : State) : (s.breakHeader f).pending = s.pending := rfl

@[simp] theorem State.cutHeader_pending (f : FeedId) (s : State) : (s.cutHeader f).pending = s.pending := by
  unfold State.cutHeader
  split <;> simp

/-- A symbol keeps the queue when what takes it does. -/
theorem State.symbol_pending {taken : State → State} (ht : ∀ v, (taken v).pending = v.pending) (f : FeedId) (s : State) :
    (s.symbol f taken).pending = s.pending := by
  unfold State.symbol
  split
  · rw [ht, State.cutHeader_pending]
  · rfl

@[simp] theorem State.takeSample_pending (f : FeedId) (chars : List Byte) (s : State) :
    (s.takeSample f chars).pending = s.pending := by
  unfold State.takeSample
  split <;> simp

@[simp] theorem State.storeLine_pending (f : FeedId) (o : OpenFrame) (y : Nat) (pairs : List PixelPair) (s : State) :
    (s.storeLine f o y pairs).pending = s.pending := rfl

@[simp] theorem State.closeComplete_pending (f : FeedId) (s : State) : (s.closeComplete f).pending = s.pending := by
  unfold State.closeComplete
  split
  · rfl
  · split <;> simp

@[simp] theorem State.endMarked_pending (f : FeedId) (line : LineBuffer) (s : State) :
    (s.endMarked f line).pending = s.pending := by
  unfold State.endMarked
  split <;> simp

@[simp] theorem State.endCounted_pending (f : FeedId) (line : LineBuffer) (s : State) :
    (s.endCounted f line).pending = s.pending := by
  unfold State.endCounted
  split
  · rfl
  · dsimp only
    split
    · rfl
    · split
      · split <;> simp
      · split <;> simp

@[simp] theorem State.endLine_pending (f : FeedId) (s : State) : (s.endLine f).pending = s.pending := by
  unfold State.endLine
  dsimp only
  split <;> simp

/-! ## Accepted headers (R4, R8) -/

@[simp] theorem State.capture_pending (f : FeedId) (s : State) : (s.capture f).pending = s.pending := by
  unfold State.capture
  dsimp only
  split <;> simp

@[simp] theorem State.admitFrame_pending (f : FeedId) (p : Placed) (s : State) : (s.admitFrame f p).pending = s.pending := by
  unfold State.admitFrame
  dsimp only
  split <;> simp

@[simp] theorem State.judgeHeader_pending (f : FeedId) (h : HeaderFields) (p : Placed) (s : State) :
    (s.judgeHeader f h p).pending = s.pending := by
  unfold State.judgeHeader
  dsimp only
  split
  · split
    · rfl
    · simp
    · split <;> simp [State.lock]
  · rfl

@[simp] theorem State.acceptHeader_pending (f : FeedId) (h : HeaderFields) (s : State) :
    (s.acceptHeader f h).pending = s.pending := by
  unfold State.acceptHeader
  dsimp only
  split <;> simp [State.expectNext]

/-! ## Every command -/

/-- The outcome of a command run on `s`: a next state with the queue of `s`. -/
def CompletesFrom (s : State) (out : Host.Outcome State Fault Refusal) : Prop :=
  ∃ t, out = .next t ∧ t.pending = s.pending

/-- A command completes when its own effect, before the step settles, keeps the queue. -/
theorem CompletesFrom.settle {s u : State} (h : u.pending = s.pending) : CompletesFrom s (.next u.settle) :=
  ⟨_, rfl, u.settle_pending.trans h⟩

/-- The same for a command that has its effect only under the condition `c`. -/
theorem CompletesFrom.ite {s u v : State} {c : Prop} [Decidable c] (hu : u.pending = s.pending)
    (hv : v.pending = s.pending) : CompletesFrom s (.next (if c then u.settle else v.settle)) := by
  split
  · exact .settle hu
  · exact .settle hv

theorem execSignalLoss_completes (f : FeedId) (s : State) : CompletesFrom s (execSignalLoss f s) := by
  unfold execSignalLoss
  dsimp only
  split
  · refine .settle ?_
    split <;> simp
  · exact .settle rfl

theorem execFrameHeader_completes (f : FeedId) (chars : List Byte) (s : State) :
    CompletesFrom s (execFrameHeader f chars s) := by
  refine .ite ?_ rfl
  split <;> simp

theorem execRefPulseEdge_completes (s : State) : CompletesFrom s (execRefPulseEdge s) := by
  unfold execRefPulseEdge
  split
  · exact .settle (by simp [State.applyLoad])
  · exact .settle rfl

theorem execReadCompletion_completes (c : Completion) (s : State) : CompletesFrom s (execReadCompletion c s) := by
  unfold execReadCompletion
  split
  · exact .settle rfl
  · exact .ite (State.completeOutstanding_pending ..) rfl

theorem execReadTimeout_completes (s : State) : CompletesFrom s (execReadTimeout s) := by
  unfold execReadTimeout
  split
  · exact .ite (State.failOutstanding_pending ..) rfl
  · exact .settle rfl

theorem execLinkBurstComplete_completes (s : State) : CompletesFrom s (execLinkBurstComplete s) := by
  unfold execLinkBurstComplete
  split
  · exact .settle (u := s.burstSent _) rfl
  · exact .settle rfl

/-- Every command's outcome, by the laws above on what its effect keeps. -/
theorem exec_completes (c : Instr) (s : State) : CompletesFrom s (exec c s) := by
  cases c with
  | signalLoss f => exact execSignalLoss_completes f s
  | signalReturn f => exact .ite (State.setLink_pending ..) rfl
  | frameHeaderStart f =>
    refine .settle (State.symbol_pending (fun v => ?_) f s)
    exact State.closeFrame_pending ..
  | frameHeader f chars => exact execFrameHeader_completes f chars s
  | lineMarker f chars => exact .settle (State.symbol_pending (fun _ => State.onReceiver_pending ..) f s)
  | sampleData f chars => exact .settle (State.symbol_pending (State.takeSample_pending f chars) f s)
  | lineEnd f => exact .settle (State.symbol_pending (State.endLine_pending f) f s)
  | metadataPacket f chars => exact .settle (State.symbol_pending (fun _ => State.onReceiver_pending ..) f s)
  | lossDeadlineExpiry f => exact .settle (State.takeDeadline_sameTime s f).pending
  | refPulseEdge => exact execRefPulseEdge_completes s
  | timeLoadWaitExpiry => exact .settle (State.takeLoadWait_kept s).pending
  | readCompletion c => exact execReadCompletion_completes c s
  | readTimeout => exact execReadTimeout_completes s
  | linkBurstComplete => exact execLinkBurstComplete_completes s
  | browseBandComplete => exact .settle (State.act_pending ..)
  | load | loadCommon | arm | stop | halt | abort | refill | feedReset => exact .settle (State.attentionFeed_pending ..)
  | start | standby | timeLoad => exact .settle (State.attentionGlobal_pending ..)
  | attentionIgnored word => exact .settle (State.attentionWrite_pending word s)
  | noticeWrite word => exact .settle (State.act_pending ..)
  | noticeMaskWrite word => exact .settle (u := s.setMask word) rfl
  | partStatusWrite word => exact .settle (State.onFlags_pending ..)
  | pageBaseWrite high word => exact .ite (State.onFront_pending ..) rfl
  | refCountLowRead => exact .settle (State.onFront_pending ..)
  | ignoredRegisterWrite offset word => exact .settle rfl
  | powerOnReset | hostLinkReset => exact ⟨_, rfl, rfl⟩

/-- Settles O2: every command but the resets is an effect that keeps the queue, and the settling of the step; the resets
replace the front and the blocks alone. -/
theorem everyCommandCompletes : Obligations.EveryCommandCompletes := exec_completes

end Sys2Proof.Machine
end
